-- ==== Sys2Proof/Word.lean ====
section
/-! DEFINITION. The plain bit vector types of the RFJ640 model. -/

namespace Sys2Proof

/-- One byte, as every frame, reply, image and memory of the manual carries it. -/
abbrev Byte := BitVec 8

/-- The bookstore's 64-bit title key (section 1.1). -/
abbrev TitleKey := BitVec 64

/-- A CRC-32 value (Conventions). -/
abbrev Crc32 := BitVec 32

/-- A CRC-16 value (Conventions). -/
abbrev Crc16 := BitVec 16

/-- A record's change count, 0..65535, which wraps (R3). -/
abbrev Revision := BitVec 16

/-- The sixteen wake items: bits 0-3 FWD, BACK, LIGHT, POWER, bits 4-15 the attention reasons (word 27 of the
settings image word map). -/
abbrev ItemSet := BitVec 16

/-- The twelve attention reasons in the order of R201, bit 0 first. -/
abbrev ReasonSet := BitVec 12

end Sys2Proof
end

