-- ==== Sys2Proof/Syntax.lean ====
section
/-! DEFINITION. The commands of the RFJ640: one constructor of `Instr` per row of spec/opcode_table.json, with the
operands that the rules of the row name. -/

namespace Sys2Proof

/-- The four keys (section 5.1). -/
inductive Key where
  | fwd | back | light | power
  deriving DecidableEq, Repr

/-- How a word of page memory disagrees with its check code (R78): one bit wrong (a read corrects it) or two bits
wrong (a read cannot recover it). -/
inductive WordError where
  | single | double
  deriving DecidableEq, Repr

/-- A disagreement that has arisen in the page memory device in the 64-bit word number `word`
(byte address / 8) by the time of the command that carries it. -/
structure WordFlip where
  word : Nat
  error : WordError
  deriving DecidableEq, Repr

/-- What a lane's load meets in the page memory device (R90, R133). `flips` have arisen by the load; the manual gives
no order of the reads of a load, so the command says whether an uncorrectable word of frame 0 was found before one of
the source frame (`zeroFirst`), and whether a corrected word was read before the finding that ended the load
(`correctedFirst`). -/
structure LoadReads where
  flips : List WordFlip
  zeroFirst : Bool
  correctedFirst : Bool
  deriving DecidableEq, Repr

/-- A request frame whose header was good (R192): tag 0..15, the flags byte, the payload bytes, and the CRC-16 that
followed the payload. The request code is the row's. -/
structure Frame where
  tag : Fin 16
  flags : Byte
  payload : List Byte
  crc : Crc16
  deriving DecidableEq, Repr

/-- A radio frame of a known kind and at least 10 bytes (section 11.7): tag, segment index, payload length field,
payload bytes as clocked, and the received frame check. -/
structure RadioFrame where
  tag : Byte
  index : BitVec 16
  length : BitVec 16
  payload : List Byte
  check : Crc32
  deriving DecidableEq, Repr

/-- The inputs that the reset event takes (R190, step Start): the battery sample in mV and the CHG line. -/
structure ResetInputs where
  millivolts : Nat
  charger : Bool
  deriving DecidableEq, Repr

/-- The commands of the block, in the order of spec/opcode_table.json. -/
inductive Instr where
  /-- COLD_START (R190); `backup`: the reader provides the keep-alive supply VKA. -/
  | coldStart (inputs : ResetInputs) (backup : Bool)
  /-- PART_RESET (R190, R200). -/
  | partReset (inputs : ResetInputs)
  /-- SHELF_WAKE (R165). -/
  | shelfWake (inputs : ResetInputs)
  /-- BRINGUP_READ_END (R190). -/
  | bringupReadEnd
  /-- BRINGUP_COMPLETION (R190): the temperature sample in degrees, the key lines found pressed, the first ambient
  reading. -/
  | bringupCompletion (temperature : Int) (pressed : List Key) (ambient : Nat)
  /-- SHORT_TRANSACTION (R192). -/
  | shortTransaction (bytes : List Byte)
  /-- BAD_HEADER (R192): the eight header bytes. -/
  | badHeader (header : List Byte)
  /-- UNKNOWN_REQUEST (R193). -/
  | unknownRequest (code : Byte) (f : Frame)
  /-- FIND_TITLE (R11). -/
  | findTitle (f : Frame)
  /-- READ_TITLE_RECORD (R12). -/
  | readTitleRecord (f : Frame)
  /-- LIST_TITLES (R13). -/
  | listTitles (f : Frame)
  /-- READ_TITLE_BYTES (R14). -/
  | readTitleBytes (f : Frame)
  /-- SET_POSITION (R16). -/
  | setPosition (f : Frame)
  /-- SET_TAG (R17). -/
  | setTag (f : Frame)
  /-- SET_LAYOUT_GENERATION (R18). -/
  | setLayoutGeneration (f : Frame)
  /-- SET_EXPIRY (R19). -/
  | setExpiry (f : Frame)
  /-- HOLD_TITLE (R20). -/
  | holdTitle (f : Frame)
  /-- RELEASE_TITLE (R21). -/
  | releaseTitle (f : Frame)
  /-- RETIRE_TITLE (R22). -/
  | retireTitle (f : Frame)
  /-- FLUSH_CATALOGUE (R48). -/
  | flushCatalogue (f : Frame)
  /-- WRITE_BACK_DELAY_EXPIRY (R42). -/
  | writeBackDelayExpiry
  /-- SECTOR_WRITE_END (R44, R45). -/
  | sectorWriteEnd (success : Bool)
  /-- TITLE_READ_PIECE_END (R14). -/
  | titleReadPieceEnd
  /-- START_DOWNLOAD (R55). -/
  | startDownload (f : Frame)
  /-- RESTART_DOWNLOAD (R56). -/
  | restartDownload (f : Frame)
  /-- CANCEL_DOWNLOAD (R57). -/
  | cancelDownload (f : Frame)
  /-- READ_TRANSFER (R58). -/
  | readTransfer (f : Frame)
  /-- SEGMENT_FRAME (R59). -/
  | segmentFrame (r : RadioFrame)
  /-- QUERY_TRANSFER (R61). -/
  | queryTransfer (r : RadioFrame)
  /-- END_OF_STREAM (R62). -/
  | endOfStream (r : RadioFrame)
  /-- RADIO_STATUS_READ (R203). -/
  | radioStatusRead
  /-- BAD_RADIO_FRAME (R203): the bytes clocked. -/
  | badRadioFrame (bytes : List Byte)
  /-- BLOCK_ERASE_END (R64, R66). -/
  | blockEraseEnd (success : Bool)
  /-- SEGMENT_PROGRAM_END (R65, R66). -/
  | segmentProgramEnd (success : Bool)
  /-- VERIFICATION_READ_END (R67, R68). -/
  | verificationReadEnd
  /-- INACTIVITY_DEADLINE_EXPIRY (R69) of the named transfer slot. -/
  | inactivityDeadlineExpiry (slot : Fin 4)
  /-- CLAIM_SLOT (R81). -/
  | claimSlot (f : Frame)
  /-- WRITE_PIXELS (R82); `flips`: the bit errors that have arisen by its merge reads (R93). -/
  | writePixels (f : Frame) (flips : List WordFlip)
  /-- COMPLETE_SLOT (R84). -/
  | completeSlot (f : Frame)
  /-- FREE_SLOT (R85). -/
  | freeSlot (f : Frame)
  /-- READ_SLOTS (R89). -/
  | readSlots (f : Frame)
  /-- KEY_EVENT (R94, R95). -/
  | keyEvent (key : Key)
  /-- KEY_RELEASE (R94). -/
  | keyRelease (key : Key)
  /-- READ_KEYS (R97). -/
  | readKeys (f : Frame)
  /-- SHOW_SLOT (R88, R104). -/
  | showSlot
  /-- GIVE_UP_SHOWN_SLOT (R88). -/
  | giveUpShownSlot
  /-- TRAILING_RELEASE (R88, R106). -/
  | trailingRelease
  /-- TURN_HOLD (R20, R100). -/
  | turnHold
  /-- TURN_RELEASE (R21, R100, R101). -/
  | turnRelease
  /-- POSITION_WRITE (R16, R106). -/
  | positionWrite
  /-- SET_CURRENT_TITLE (R100). -/
  | setCurrentTitle (f : Frame)
  /-- CLEAR_CURRENT_TITLE (R101). -/
  | clearCurrentTitle (f : Frame)
  /-- RESUME_TURNING (R114). -/
  | resumeTurning (f : Frame)
  /-- SET_PASS_THROUGH (R112). -/
  | setPassThrough (f : Frame)
  /-- GO_TO_PAGE (R113). -/
  | goToPage (f : Frame)
  /-- READ_TURN_STATE (R115). -/
  | readTurnState (f : Frame)
  /-- UPDATE_REGION (R117). -/
  | updateRegion (f : Frame)
  /-- CANCEL_UPDATES (R123). -/
  | cancelUpdates (f : Frame)
  /-- LANE_LOAD_END (R133). -/
  | laneLoadEnd (lane : Fin 4) (reads : LoadReads)
  /-- PANEL_SUPPLY_REGULATION (R134). -/
  | panelSupplyRegulation
  /-- PANEL_SUPPLY_FAILURE (R137). -/
  | panelSupplyFailure
  /-- OFF_DELAY_END (R134). -/
  | offDelayEnd
  /-- DRIVE_END (R135). -/
  | driveEnd (lane : Fin 4)
  /-- LANE_COMPLETION (R135); `flips`: the bit errors that have arisen by the merge reads of the frame 0 copy (R93). -/
  | laneCompletion (lane : Fin 4) (flips : List WordFlip)
  /-- READ_PANEL (R139). -/
  | readPanel (f : Frame)
  /-- TEMPERATURE_SAMPLE (R119), in degrees. -/
  | temperatureSample (temperature : Int)
  /-- SET_LIGHT (R141). -/
  | setLight (f : Frame)
  /-- READ_LIGHT (R154). -/
  | readLight (f : Frame)
  /-- AMBIENT_SAMPLE (R142). -/
  | ambientSample (reading : Nat)
  /-- RAMP_STEP (R146). -/
  | rampStep
  /-- AUTO_DIM_EXPIRY (R148). -/
  | autoDimExpiry
  /-- LIGHT_OFF_EXPIRY (R149). -/
  | lightOffExpiry
  /-- ENTER_READING (R157). -/
  | enterReading (f : Frame)
  /-- RESUME_ACTIVE (R157). -/
  | resumeActive (f : Frame)
  /-- ENTER_DORMANT (R158). -/
  | enterDormant (f : Frame)
  /-- ENTER_SHELF (R158). -/
  | enterShelf (f : Frame)
  /-- DORMANT_HELD_ACTION (R162). -/
  | dormantHeldAction
  /-- DORMANT_DELAY_EXPIRY (R159). -/
  | dormantDelayExpiry
  /-- ARM_WAKE (R167). -/
  | armWake (f : Frame)
  /-- BATTERY_SAMPLE (R169), in mV. -/
  | batterySample (millivolts : Nat)
  /-- CHG_CHANGE (R171): the new level, true for charger present. -/
  | chgChange (present : Bool)
  /-- CRITICAL_TIMER_EXPIRY (R171). -/
  | criticalTimerExpiry
  /-- SET_TIME (R177). -/
  | setTime (f : Frame)
  /-- REAL_TIME_COUNT_STEP (R177). -/
  | realTimeCountStep
  /-- SET_ALARM (R178). -/
  | setAlarm (f : Frame)
  /-- READ_POWER (R179). -/
  | readPower (f : Frame)
  /-- READ_FAULT (R184). -/
  | readFault (f : Frame)
  /-- CLEAR_FAULT (R185). -/
  | clearFault (f : Frame)
  /-- WRITE_SETTINGS (R187). -/
  | writeSettings (f : Frame)
  /-- SETTINGS_WRITE_END (R187). -/
  | settingsWriteEnd (success : Bool)
  /-- READ_SETTINGS (R188). -/
  | readSettings (f : Frame)
  /-- WRITE_WAVEFORMS (R189). -/
  | writeWaveforms (f : Frame)
  /-- WAVEFORM_WRITE_END (R189). -/
  | waveformWriteEnd (success : Bool)
  /-- STATUS (R198). -/
  | status (f : Frame)
  /-- FETCH_REPLY (R197). -/
  | fetchReply (f : Frame)
  /-- REPLY_FETCHED (R197). -/
  | replyFetched
  /-- ACK_ATTENTION (R201). -/
  | ackAttention (f : Frame)
  /-- RESET_LINK (R199). -/
  | resetLink (f : Frame)
  /-- RESTART (R200). -/
  | restart (f : Frame)
  /-- MAIN_SUPPLY_LOSS (R191); `vkaStays`: the keep-alive supply stays valid. -/
  | mainSupplyLoss (vkaStays : Bool)
  deriving DecidableEq, Repr

end Sys2Proof
end

