-- ==== Sys2Proof/Config.lean ====
section
/-! DEFINITION. The free values of the model: values that the manual leaves open and the part produces all the same.
Each is a constant with no body, so nothing can be proved about what it is. -/

namespace Sys2Proof

/-- What stays in flash where a write was cut off or failed: an unreadable content, the content from before the
write, or the content the write carried (R38, R52). -/
inductive Remains where
  | unreadable | old | new
  deriving DecidableEq, Repr, Inhabited

/-- What slot of handle `h` holds after the cut-off or failed sector write number `n` (R38, R52; log 13). -/
opaque Config.slotRemains (n h : Nat) : Remains

/-- Which of the 16 slots of a sector is surely unreadable after its cut-off write number `n`, modulo 16 (R52; log 13). -/
opaque Config.lostSlot (n : Nat) : Nat

/-- What block 4 or blocks 5-7 hold after the failed settings or waveform write number `n` (R187, R189; log 14). -/
opaque Config.imageRemains (n : Nat) : Remains

/-- The byte at flash address `a` of a unit whose content became undefined in event number `n` (R52, R66; log 15). -/
opaque Config.undefinedByte (n a : Nat) : Byte

/-- The temperature that the fresh sample number `n` finds at a CLEAR's admission (R119; log 12). -/
opaque Config.freshTemperature (n : Nat) : Int

/-- The battery sample in mV that the part reset of a RESTART takes, in event number `n` (R190, R200; log 35). -/
opaque Config.resetSample (n : Nat) : Nat

/-- Which of the unassigned words of the settings image carries the recomputed word sum of READ SETTINGS
(R188; log 18). -/
opaque Config.sumWord : Nat

end Sys2Proof
end

