-- ==== Sys2Proof/Machine/Types.lean ====
section
/-! DEFINITION. The records and names that the chapters of the manual give the thirteen blocks. -/

namespace Sys2Proof.Machine

/-! ### Chapter 1: title records -/

/-- The six life states of a title (section 1.2). -/
inductive TitleState where
  | empty | fetching | ready | incomplete | expired | retiring
  deriving DecidableEq, Repr

/-- Last fetch result (R10). -/
inductive FetchResult where
  | noResult | done | timeout | check | flash | cancelled | expired | reset
  deriving DecidableEq, Repr

/-- A run of consecutive title blocks (section 1.1). -/
structure Extent where
  start : Nat
  count : Nat
  deriving DecidableEq, Repr

/-- The fields of a title record that its catalogue slot holds (section 1.1, R39). -/
structure Persisted where
  state : TitleState
  key : TitleKey
  revision : Revision
  declaredLength : Option Nat
  titleCheck : Option Crc32
  extents : List Extent
  position : Nat
  generation : Nat
  tag : Nat
  expiry : Option Nat
  fetch : FetchResult
  deriving DecidableEq, Repr

/-- A title record of the working catalogue (section 1.1): the persisted fields, the hold count and the dirty
flag. -/
structure TitleRecord extends Persisted where
  holds : Nat
  dirty : Bool
  deriving DecidableEq, Repr

/-- A READ TITLE BYTES that has been accepted and not yet answered (R14, R15). -/
structure TitleRead where
  request : Nat
  handle : Nat
  granted : Bool
  piecesLeft : Nat
  bytes : List Byte
  deriving DecidableEq, Repr

/-- The Title Catalogue block. -/
structure Catalogue where
  records : Vector TitleRecord 1024
  expiryList : List Nat
  reads : List TitleRead
  deriving DecidableEq, Repr

/-! ### Chapter 2: flash -/

/-- The four flash sizes (R29). -/
inductive FlashSize where
  | mib64 | mib128 | mib256 | mib512
  deriving DecidableEq, Repr

/-- Condition of a title block (section 2.2). -/
inductive BlockCondition where
  | free
  | owned (handle : Nat)
  | releasing (sector : Nat)
  deriving DecidableEq, Repr

/-- An entry of the release list (R33); `cover` names the sector write whose snapshot covers it. -/
structure ReleaseEntry where
  extent : Extent
  sector : Nat
  cover : Option Nat
  deriving DecidableEq, Repr

/-- The Flash Block Map: the size in force, one condition per title block (block 8 first) and the release list. -/
structure BlockMap where
  size : FlashSize
  conditions : List BlockCondition
  releaseList : List ReleaseEntry
  deriving DecidableEq, Repr

/-- A persisted catalogue slot as flash holds it (R39). The byte arrangement is internal to the part; a slot whose
check fails is `unreadable`. -/
inductive SlotImage where
  | unreadable
  | whole (p : Persisted)
  deriving DecidableEq, Repr

/-- The attached content flash (R29): catalogue slots by handle, the settings and waveform images as their bytes
(an erased area holds none), the title bytes by flash address in canonical form, and the 16 KiB units whose content
is undefined, each with the number of its free value. -/
structure FlashDevice where
  slots : Vector SlotImage 1024
  settings : List Byte
  waveform : List Byte
  title : List Host.Cell
  unknown : List (Nat × Nat)
  deriving DecidableEq, Repr

/-- What a bring-up read reads (R190). -/
inductive BringupRead where
  | settings
  | waveforms
  | sector (n : Nat)
  deriving DecidableEq, Repr

/-- The operations of the flash port (R34). -/
inductive FlashJob where
  | titleRead (request address length : Nat)
  | verifyRead (xfer address length : Nat)
  | bringupRead (what : BringupRead)
  | erase (xfer handle position block : Nat)
  | program (xfer handle index address : Nat) (buffer : Fin 4)
  | sectorWrite (sector number : Nat) (snapshot : List Persisted)
  | settingsWrite (request : Nat) (image : List Byte)
  | waveformWrite (request : Nat) (image : List Byte)
  deriving DecidableEq, Repr

/-- An operation placed with the Flash Port Controller: its class, whether its owner holds it back, and its job
(R34, R36). -/
structure FlashOp where
  cls : Nat
  held : Bool
  job : FlashJob
  deriving DecidableEq, Repr

/-- The three states of the Flash Port Controller (R35). -/
inductive PortPhase where
  | idle
  | claiming (op : FlashOp)
  | busy (op : FlashOp)
  deriving DecidableEq, Repr

/-- The Flash Port Controller: its state and the waiting operations in order of placement. -/
structure FlashPort where
  phase : PortPhase
  waiting : List FlashOp
  deriving DecidableEq, Repr

/-- An entry of the write-back queue (R40). -/
structure WriteBackEntry where
  sector : Nat
  created : Nat
  deriving DecidableEq, Repr

/-- The sector in flight (R43): its sector, original creation time, and the number naming this write. -/
structure InFlight where
  sector : Nat
  created : Nat
  number : Nat
  deriving DecidableEq, Repr

/-- A member of a flush's awaited set (R47): a queued entry by its sector, or a sector write by its number. -/
inductive Awaited where
  | entry (sector : Nat)
  | write (number : Nat)
  deriving DecidableEq, Repr

/-- Who demanded a flush (R47). -/
inductive FlushOwner where
  | host (request : Nat)
  | dormantEntry
  | shelfEntry
  | battery
  deriving DecidableEq, Repr

/-- How a flush ended (R48). -/
inductive FlushEnd where
  | completed | halted
  deriving DecidableEq, Repr

/-- An outstanding flush (R47). -/
structure Flush where
  owner : FlushOwner
  awaited : List Awaited
  deriving DecidableEq, Repr

/-- The Write-back Engine (section 2.6). -/
structure WriteBack where
  queue : List WriteBackEntry
  inFlight : Option InFlight
  halted : Bool
  flushes : List Flush
  elapsed : Nat
  nextWrite : Nat
  deriving DecidableEq, Repr

/-! ### Chapter 3: downloads -/

/-- Stage of a transfer (section 3.1). -/
inductive TransferState where
  | free | receiving | suspended | verifying
  deriving DecidableEq, Repr

/-- The inactivity deadline (section 3.1), in ms. -/
inductive Deadline where
  | absent
  | running (left : Nat)
  | paused (left : Nat)
  deriving DecidableEq, Repr

/-- Verification progress (section 3.1): next title offset, and the CRC-32 register so far (before the final
inversion). -/
structure Verification where
  offset : Nat
  crc : Crc32
  deriving DecidableEq, Repr

/-- A transfer slot (section 3.1). The segment count is the length of the received map. `xfer` names the transfer
that the slot holds. -/
structure TransferSlot where
  state : TransferState
  handle : Nat
  tag : Nat
  received : List Bool
  pending : List Nat
  erased : List Bool
  erasing : List Nat
  deadline : Deadline
  verification : Option Verification
  xfer : Nat
  deriving DecidableEq, Repr

/-- What the segment of an occupied buffer waits for (section 3.1). -/
inductive BufferMark where
  | awaitingErase | atPort | programming
  deriving DecidableEq, Repr

/-- An occupied segment buffer (section 3.1); `order` is the order of acceptance. -/
structure Segment where
  xfer : Nat
  tag : Nat
  index : Nat
  payload : List Byte
  mark : BufferMark
  order : Nat
  deriving DecidableEq, Repr

/-- The Download Engine. -/
structure Downloads where
  slots : Vector TransferSlot 4
  buffers : Vector (Option Segment) 4
  tagCounter : Nat
  suspended : Bool
  nextXfer : Nat
  nextAccept : Nat
  deriving DecidableEq, Repr

/-- Status codes of the radio link (section 11.7). -/
inductive RadioCode where
  | accepted | duplicate | badCheck | noTransfer | outOfRange | badLength | noBuffer | suspended | ended | missing
  deriving DecidableEq, Repr

/-- The radio status (section 11.7); `slotState` is its byte 5. -/
structure RadioStatus where
  code : RadioCode
  tag : Byte
  index : BitVec 16
  free : Nat
  slotState : Nat
  received : Nat
  firstMissing : Nat
  missing : Nat
  deriving DecidableEq, Repr

/-! ### Chapter 4: page memory -/

/-- States of a page slot (section 4.2). -/
inductive PageSlotState where
  | free | filling | ready | shown
  deriving DecidableEq, Repr

/-- Mode hint of a page slot (section 4.2). -/
inductive ModeHint where
  | grey16 | clear
  deriving DecidableEq, Repr

/-- A page slot record (section 4.2). -/
structure PageSlot where
  state : PageSlotState
  handle : Nat
  page : Nat
  generation : Nat
  fence : Bool
  hint : ModeHint
  deriving DecidableEq, Repr

/-- Identity of a slot (section 4.2). -/
structure SlotIdentity where
  handle : Nat
  page : Nat
  generation : Nat
  deriving DecidableEq, Repr

/-- A rectangle of the panel in pixels. -/
structure Rect where
  x : Nat
  y : Nat
  w : Nat
  h : Nat
  deriving DecidableEq, Repr

/-- A WRITE PIXELS held while a lane loads its frame (R83). `identity` is the slot's identity at acceptance, absent for
a compose frame. -/
structure HeldWrite where
  request : Nat
  frame : Nat
  rect : Rect
  pixels : List Byte
  identity : Option SlotIdentity
  deriving DecidableEq, Repr

/-- Power condition of page memory (R92). -/
inductive PageMemoryMode where
  | running | selfRefresh | off
  deriving DecidableEq, Repr

/-- The Page Memory Controller. -/
structure PageMemory where
  cells : List Host.Cell
  errors : List WordFlip
  slots : Vector PageSlot 28
  held : List HeldWrite
  mode : PageMemoryMode
  deriving DecidableEq, Repr

/-! ### Chapter 5: turning -/

/-- Turn Engine states (section 5.3). -/
inductive TurnState where
  | off | ready | turning | stopped | pass
  deriving DecidableEq, Repr

/-- Stop reasons (section 5.3). -/
inductive StopReason where
  | miss | fence | expired | retiring
  deriving DecidableEq, Repr

/-- A key event (R94). -/
structure KeyEvent where
  key : Key
  seconds : Nat
  milliseconds : Nat
  timeValid : Bool
  deriving DecidableEq, Repr

/-- Reasons of the host key queue (R96). -/
inductive KeyReason where
  | passed | missed | fenced | stopped | power
  deriving DecidableEq, Repr

/-- An entry of the host key queue (R96). -/
structure KeyEntry where
  event : KeyEvent
  reason : KeyReason
  deriving DecidableEq, Repr

/-- Direction of a turn (section 5.3). -/
inductive TurnDirection where
  | fwd | back | goTo
  deriving DecidableEq, Repr

/-- Origin of a turn (section 5.3): the key event that started it, an owed turn by its key, whose time is that of the
event that hands it over (R96), or GO TO PAGE with its request. -/
inductive TurnOrigin where
  | key (event : KeyEvent)
  | owed (key : Key)
  | goTo (request : Nat)
  deriving DecidableEq, Repr

/-- The turn in flight (section 5.3); `shown`: its show has been made; `lost`: before that its slot was freed (R104);
`giveUp`: the engine has sent the give-up of its slot behind its show, which is still to be taken (R79, R88; log 21). -/
structure TurnFlight where
  slot : Fin 28
  page : Nat
  direction : TurnDirection
  origin : TurnOrigin
  shown : Bool
  lost : Bool
  giveUp : Bool
  deriving DecidableEq, Repr

/-- A SET CURRENT TITLE waiting for its hold (section 5.3). -/
structure TitleChange where
  handle : Nat
  page : Nat
  request : Nat
  deriving DecidableEq, Repr

/-- A position write that the Turn Engine has sent to the catalogue (R106). -/
structure PositionWrite where
  handle : Nat
  page : Nat
  deriving DecidableEq, Repr

/-- The Turn Engine. `lastShow` is the slot of the last show that was made and not given up since (R88). The last four fields are the events it has
sent that have not yet been taken. -/
structure TurnEngine where
  state : TurnState
  reason : Option StopReason
  title : Nat
  page : Nat
  passThrough : Bool
  owed : Int
  flight : Option TurnFlight
  change : Option TitleChange
  refillArmed : Bool
  lastShow : Option (Fin 28)
  keyQueue : List KeyEntry
  giveUps : List (Fin 28)
  trailing : List (List (Fin 28))
  releases : List Nat
  positions : List PositionWrite
  deriving DecidableEq, Repr

/-! ### Chapter 6: the panel -/

/-- Update modes (R118). -/
inductive Mode where
  | clear | grey16 | mono | sketch
  deriving DecidableEq, Repr

/-- Origin of an update (section 6.2). -/
inductive UpdateOrigin where
  | host | turn
  deriving DecidableEq, Repr

/-- What the choice of an entry decided (R126): the mode it will drive, the PROMOTED mark, and whether the choice was
forced to CLEAR because frame 0 was unknown (R136). -/
structure Admission where
  mode : Mode
  promoted : Bool
  forced : Bool
  deriving DecidableEq, Repr

/-- An entry of the update queue (section 6.2). `admission` is present while the entry is in admission. -/
structure UpdateEntry where
  source : Nat
  rect : Rect
  mode : Mode
  noPromote : Bool
  origin : UpdateOrigin
  order : Nat
  requesters : List Nat
  admission : Option Admission
  deriving DecidableEq, Repr

/-- Lane states (section 6.5). -/
inductive LaneState where
  | idle | loading | loaded | driving | settling
  deriving DecidableEq, Repr

/-- A drive lane (section 6.5). The buffer holds the new pixels of the rectangle and, for a partial mode, the old ones
of frame 0, both by byte offset in the frame. -/
structure Lane where
  state : LaneState
  source : Nat
  rect : Rect
  mode : Mode
  promoted : Bool
  origin : UpdateOrigin
  requesters : List Nat
  frames : Nat
  newPixels : List Host.Cell
  oldPixels : Option (List Host.Cell)
  deriving DecidableEq, Repr

/-- Panel supply states (R134). -/
inductive SupplyState where
  | off | rising | on
  deriving DecidableEq, Repr

/-- A timer: stopped, or running with the ms left. -/
inductive Timer where
  | stopped
  | running (left : Nat)
  deriving DecidableEq, Repr

/-- The Panel Drive Unit. -/
structure Panel where
  queue : List UpdateEntry
  nextOrder : Nat
  lanes : Vector Lane 4
  ghost : List Nat
  zeroKnown : Bool
  supply : SupplyState
  offDelay : Timer
  band : Nat
  halted : Bool
  deriving DecidableEq, Repr

/-- The waveform table in force (R118, R189): the 32 frame counts in mode order, eight bands each, whether it is the
built-in table, and the words of the stored image (none for the built-in table). -/
structure Waveform where
  counts : List Nat
  builtin : Bool
  image : List Nat
  deriving DecidableEq, Repr

/-! ### Chapter 7: the light -/

/-- Ramp states (R146). -/
inductive RampState where
  | off | rising | steady | falling
  deriving DecidableEq, Repr

/-- The Light Engine record (section 7.1) with its three timers. `refill`: the next sample fills all four history
places (R142). -/
structure Light where
  switch : Bool
  level : Nat
  warmth : Nat
  auto : Bool
  history : List Nat
  factor : Nat
  refill : Bool
  dimmed : Bool
  timedOff : Bool
  forcedDark : Bool
  maskCount : Nat
  allowance : Nat
  warmTarget : Nat
  coolTarget : Nat
  warmOutput : Nat
  coolOutput : Nat
  autoDim : Timer
  lightOff : Timer
  ramp : Timer
  deriving DecidableEq, Repr

/-! ### Chapter 8: power -/

/-- Power states (section 8.1). -/
inductive PowerState where
  | bringup | active | reading | dormant | shelf
  deriving DecidableEq, Repr

/-- Entry in progress (R156). -/
inductive EntryKind where
  | dormant | shelf
  deriving DecidableEq, Repr

/-- Steps of DORMANT entry (R160). -/
inductive EntryStep where
  | lanes | light | transfers | flush | pageMemory
  deriving DecidableEq, Repr

/-- A host request that the Power Controller's record holds: its number and, whatever becomes of the link's table, its
tag (R156). -/
structure HeldRequest where
  id : Nat
  tag : Fin 16
  deriving DecidableEq, Repr

/-- Causes of an entry (R156, R160). -/
inductive EntryCause where
  | enterDormant (request : HeldRequest)
  | enterShelf (request : HeldRequest)
  | dormantDelay
  | battery
  | criticalTimer
  | exhausted
  deriving DecidableEq, Repr

/-- A held wake (R161). -/
inductive Wake where
  | key (event : KeyEvent)
  | alarm
  | resume (request : HeldRequest)
  deriving DecidableEq, Repr

/-- The dormant delay (R159). -/
inductive DormantDelay where
  | stopped
  | running (left : Nat)
  | deferred
  deriving DecidableEq, Repr

/-- Battery bands (R169), from the highest. -/
inductive Band where
  | normal | low | critical | exhausted
  deriving DecidableEq, Repr

/-- Clock rates (R175). -/
inductive ClockRate where
  | full | economy
  deriving DecidableEq, Repr

/-- Owners of budget claims other than the light's (section 8.8). A lane's claim is the admission's until it is
granted. -/
inductive ClaimOwner where
  | lane (i : Fin 4)
  | admission
  | port
  | boost
  deriving DecidableEq, Repr

/-- A claim on the supply budget (R172). -/
structure Claim where
  owner : ClaimOwner
  units : Nat
  deriving DecidableEq, Repr

/-- Bring-up steps (R190); the rebuild reads the sectors one by one. -/
inductive BringupStep where
  | settings
  | waveforms
  | rebuild
  | pageMemory
  | complete
  deriving DecidableEq, Repr

/-- The main-domain part of the Power Controller (R156). `heldDue`: the action on what is held at DORMANT is due
(R162). `dueExhausted`, `dueTimer`: SHELF entry follows when DORMANT is reached (R171). `retryExhausted`: a SHELF entry
caused by EXHAUSTED has stopped on HALTED in this DORMANT (R171). `attached`: the charger has attached during the SHELF entry (R164).
`criticalRanOut`: the CRITICAL timer ran out during bring-up (R171). -/
structure Power where
  state : PowerState
  entry : Option EntryKind
  step : Option EntryStep
  dormantCauses : List EntryCause
  shelfCauses : List EntryCause
  heldWake : Option Wake
  heldShelf : Option HeldRequest
  heldDue : Bool
  dueExhausted : Bool
  dueTimer : Bool
  retryExhausted : Bool
  attached : Bool
  entryFlush : Option FlushEnd
  shelfFlush : Option FlushEnd
  dormantDelay : DormantDelay
  band : Band
  millivolts : Nat
  bandCount : Nat
  candidate : Band
  charger : Bool
  critical : Timer
  criticalRanOut : Bool
  granted : List Claim
  waiting : List Claim
  lightClaim : Nat
  turnBoost : Bool
  downloadBoost : Bool
  clock : ClockRate
  residency : Nat
  fromShelf : Bool
  transfersActive : Bool
  bringup : BringupStep
  deriving DecidableEq, Repr

/-- The keep-alive domain (section "Power domains", R156, R177): `powered` says whether it has power. -/
structure KeepAlive where
  powered : Bool
  seconds : Nat
  milliseconds : Nat
  valid : Bool
  alarm : Option Nat
  arming : ItemSet
  shelfMarker : Bool
  deriving DecidableEq, Repr

/-- The supplies outside the part: the main supply is present; the reader provides VKA. -/
structure Supplies where
  main : Bool
  backup : Bool
  deriving DecidableEq, Repr

/-! ### Chapter 9: faults -/

/-- The ten kinds of fault (R181). -/
inductive FaultKind where
  | flashWrite | pageMemory | panelSupply | catalogueSlot | catalogueConflict
  | segmentWrite | pageMemoryCorrected | extentRange | settings | waveform
  deriving DecidableEq, Repr

/-- The captured fields of the fault record (section 9.1); the severity follows from the kind. -/
structure CapturedFault where
  kind : FaultKind
  location : Option Nat
  seconds : Nat
  timeValid : Bool
  deriving DecidableEq, Repr

/-- The Fault Capture Unit; `valid` is the presence of `captured`. -/
structure FaultRecord where
  captured : Option CapturedFault
  further : Bool
  furtherSevere : Bool
  deriving DecidableEq, Repr

/-! ### Chapter 10: settings -/

/-- The working settings (section 10.1). Delays in the units of the section. -/
structure Settings where
  flashSize : FlashSize
  unloadThreshold : Nat
  writeBackDelay : Nat
  retireOnExpiry : Bool
  inactivityTimeout : Nat
  reportCorrected : Bool
  behindKeep : Nat
  refillMark : Nat
  ghostLimit : Nat
  defaultLevel : Nat
  defaultWarmth : Nat
  defaultAuto : Bool
  dimFactor : Nat
  maskFactor : Nat
  masking : Bool
  capNormal : Nat
  capLow : Nat
  capCritical : Nat
  capExhausted : Nat
  rampRate : Nat
  autoDimDelay : Nat
  lightOffDelay : Nat
  dormantDelay : Nat
  ceilingNormal : Nat
  ceilingLow : Nat
  ceilingCritical : Nat
  capability : ItemSet
  levelCurve : List Nat
  ambientReadings : List Nat
  ambientFactors : List Nat
  deriving DecidableEq, Repr

/-! ### Chapter 11: the host link -/

/-- The requests of the request index (section 11.5), in the order of their codes. -/
inductive RequestCode where
  | findTitle | readTitleRecord | listTitles | readTitleBytes | setPosition | setTag | setLayoutGeneration
  | setExpiry | holdTitle | releaseTitle | retireTitle
  | flushCatalogue
  | startDownload | restartDownload | cancelDownload | readTransfer
  | claimSlot | writePixels | completeSlot | freeSlot | readSlots
  | readKeys | setCurrentTitle | clearCurrentTitle | resumeTurning | setPassThrough | goToPage | readTurnState
  | updateRegion | cancelUpdates | readPanel
  | setLight | readLight
  | enterReading | resumeActive | enterDormant | enterShelf | armWake | setTime | setAlarm | readPower
  | readFault | clearFault
  | writeSettings | readSettings | writeWaveforms
  | status | fetchReply | ackAttention | resetLink | restart
  deriving DecidableEq, Repr

/-- Result codes (section 11.6), in the order of their codes. -/
inductive Result where
  | ok | notFound | badHandle | wrongState | staleRevision | staleGeneration | duplicateKey | noHandle | noSpace
  | fragmented | noTransferSlot | holdLimit | notHeld | expired | misaligned | outOfRange | queueFull | noSlot
  | duplicatePage | slotState | inDrive | sourceGone | dataError | panelFault | cancelled | halted | badImage
  | timeNotSet | asleep | done
  deriving DecidableEq, Repr

/-- Immediate status codes (section 11.7). -/
inductive Immediate where
  | accepted | busy | tagInUse | frameError | unknownRequest | starting
  deriving DecidableEq, Repr

/-- The twelve attention reasons (R201). -/
inductive Reason where
  | keys | keysLost | turnStopped | refill | downloadDone | downloadFailed | titleExpired | titleRetired
  | fault | battery | alarm | bringupDone
  deriving DecidableEq, Repr

/-- An outstanding request (R194). `id` names the request for as long as it lives; a detached request is one whose
`id` is no longer in the table. -/
structure Outstanding where
  id : Nat
  tag : Fin 16
  code : RequestCode
  replied : Bool
  deriving DecidableEq, Repr

/-- A reply (R196), or an in-line answer (R193): the reply header's fields and the payload bytes. A code of `none` is
the 0x00 of an empty fetch (R197). -/
structure Reply where
  tag : Fin 16
  code : Option RequestCode
  result : Result
  payload : List Byte
  deriving DecidableEq, Repr

/-- The immediate status (section 11.7). -/
structure ImmediateStatus where
  code : Immediate
  tag : Fin 16
  outstanding : Nat
  replies : Nat
  deriving DecidableEq, Repr

/-- What the part shifts out after the frame of the present transaction (R192, R193): nothing, FRAME_ERROR bytes to
its end, or the immediate status and, for an in-line request, the answer. -/
inductive LinkOut where
  | silent
  | frameErrors
  | answer (status : ImmediateStatus) (inline : Option Reply)
  deriving DecidableEq, Repr

/-- The Host Link Port. -/
structure HostLink where
  outstanding : List Outstanding
  replies : List Reply
  attention : ReasonSet
  out : LinkOut
  fetching : Bool
  restart : Bool
  nextId : Nat
  deriving DecidableEq, Repr

/-- The output lines ATTN_N (true: asserted, low) and RRDY (true: asserted). -/
structure Pins where
  attn : Bool
  rrdy : Bool
  deriving DecidableEq, Repr

end Sys2Proof.Machine
end

