-- ==== Sys2Proof/Machine/Defaults.lean ====
section
/-! DEFINITION. The default and empty values of the records: what a cold start or a part reset gives each block
(R6, R53, R80, R99, R120, R140, R156, R174, R180), and the default settings (section 10.1). -/

namespace Sys2Proof.Machine

/-- The persisted fields of an EMPTY record (section 1.1); the revision is kept by whoever empties a record. -/
def Persisted.blank : Persisted where
  state := .empty
  key := 0
  revision := 0
  declaredLength := none
  titleCheck := none
  extents := []
  position := 0
  generation := 0
  tag := 0
  expiry := none
  fetch := .noResult

/-- An EMPTY record with revision 0, no hold, not dirty. -/
def TitleRecord.blank : TitleRecord := { Persisted.blank with holds := 0, dirty := false }

/-- Number of title blocks of a flash size (R29). -/
def FlashSize.titleBlocks : FlashSize → Nat
  | .mib64 => 1016
  | .mib128 => 2040
  | .mib256 => 4088
  | .mib512 => 8184

/-- A FREE transfer slot (R70). -/
def TransferSlot.blank : TransferSlot where
  state := .free
  handle := 0
  tag := 0
  received := []
  pending := []
  erased := []
  erasing := []
  deadline := .absent
  verification := none
  xfer := 0

/-- The FREE values of a page slot (section 4.2). -/
def PageSlot.blank : PageSlot where
  state := .free
  handle := 0
  page := 0
  generation := 0
  fence := false
  hint := .grey16

/-- The rectangle of an idle lane. -/
def Rect.none : Rect := ⟨0, 0, 0, 0⟩

/-- An IDLE lane (R132); its other fields, as READ PANEL shows them, are log 50. -/
def Lane.blank : Lane where
  state := .idle
  source := 0
  rect := Rect.none
  mode := .clear
  promoted := false
  origin := .host
  requesters := []
  frames := 0
  newPixels := []
  oldPixels := none

/-- The built-in frame counts (R118), in mode order CLEAR, GREY16, MONO, SKETCH, bands 0..7 each. -/
def builtinCounts : List Nat :=
  [152, 120, 98, 86, 76, 70, 64, 60,
   76, 60, 49, 43, 38, 35, 32, 30,
   44, 35, 29, 25, 22, 20, 18, 17,
   20, 16, 13, 11, 10, 9, 8, 8]

/-- The built-in waveform table (R118), in force until bring-up step 2 (log 71). -/
def Waveform.standard : Waveform := ⟨builtinCounts, true, []⟩

/-- The default ambient table (R142). -/
def ambientReadingsDefault : List Nat := [0, 16, 64, 256, 512, 1024, 2048, 4095]

/-- The factors of the default ambient table (R142). -/
def ambientFactorsDefault : List Nat := [6144, 12288, 20480, 32767, 24576, 16384, 4096, 0]

/-- The default level curve, curve[L] = L x L x 34 (R143). -/
def levelCurveDefault : List Nat := (List.range 32).map fun l => l * l * 34

/-- The default settings (section 10.1). -/
def Settings.standard : Settings where
  flashSize := .mib256
  unloadThreshold := 2
  writeBackDelay := 30
  retireOnExpiry := false
  inactivityTimeout := 120
  reportCorrected := false
  behindKeep := 3
  refillMark := 4
  ghostLimit := 6
  defaultLevel := 16
  defaultWarmth := 16384
  defaultAuto := false
  dimFactor := 16384
  maskFactor := 8192
  masking := true
  capNormal := 32767
  capLow := 24576
  capCritical := 12288
  capExhausted := 0
  rampRate := 3
  autoDimDelay := 60
  lightOffDelay := 300
  dormantDelay := 15
  ceilingNormal := 200
  ceilingLow := 120
  ceilingCritical := 80
  capability := 0xFFFF
  levelCurve := levelCurveDefault
  ambientReadings := ambientReadingsDefault
  ambientFactors := ambientFactorsDefault

/-- The default wake arming of a cold start: FWD, BACK, POWER, TURN_STOPPED, KEYS, REFILL and BATTERY (R167), in the
bit order of word 27 of the settings image. -/
def armingDefault : ItemSet := 0x20DB

/-- The keep-alive domain after a cold start (R156, R177). -/
def KeepAlive.cold : KeepAlive where
  powered := true
  seconds := 0
  milliseconds := 0
  valid := false
  alarm := none
  arming := armingDefault
  shelfMarker := false

/-- The Title Catalogue before the rebuild (R6; log 3). -/
def Catalogue.blank : Catalogue := ⟨Vector.replicate 1024 TitleRecord.blank, [], []⟩

/-- The Flash Block Map before the rebuild (R30; log 4). -/
def BlockMap.blank : BlockMap := ⟨.mib256, List.replicate 4088 .free, []⟩

/-- An erased content flash (R29, R39; log 2). -/
def FlashDevice.erased : FlashDevice := ⟨Vector.replicate 1024 .unreadable, [], [], [], []⟩

/-- The Write-back Engine after a reset (R41). -/
def WriteBack.blank : WriteBack where
  queue := []
  inFlight := none
  halted := false
  flushes := []
  elapsed := 0
  nextWrite := 0

/-- The Download Engine after a reset (R53). -/
def Downloads.blank : Downloads where
  slots := Vector.replicate 4 TransferSlot.blank
  buffers := Vector.replicate 4 none
  tagCounter := 1
  suspended := false
  nextXfer := 1
  nextAccept := 0

/-- The radio status before the first frame (R203). -/
def RadioStatus.blank : RadioStatus := ⟨.noTransfer, 0, 0, 0, 0, 0, 0, 0⟩

/-- The Page Memory Controller after a reset (R80). -/
def PageMemory.blank : PageMemory := ⟨[], [], Vector.replicate 28 PageSlot.blank, [], .running⟩

/-- The Turn Engine after a reset (section 5.3). -/
def TurnEngine.blank : TurnEngine where
  state := .off
  reason := none
  title := 0
  page := 0
  passThrough := false
  owed := 0
  flight := none
  change := none
  refillArmed := true
  lastShow := none
  keyQueue := []
  giveUps := []
  trailing := []
  releases := []
  positions := []

/-- The Panel Drive Unit after a reset (R120, R130, R132, R134, R136, R138; the band is log 5, the ghost counts until
bring-up has read the settings are log 47, and the creation order's start is log 48). -/
def Panel.blank : Panel where
  queue := []
  nextOrder := 0
  lanes := Vector.replicate 4 Lane.blank
  ghost := List.replicate 195 6
  zeroKnown := false
  supply := .off
  offDelay := .stopped
  band := 0
  halted := false

/-- The Light Engine after a reset (section 7.1; the history and factor before the first sample are log 3). -/
def Light.blank : Light where
  switch := false
  level := 16
  warmth := 16384
  auto := false
  history := [0, 0, 0, 0]
  factor := 0
  refill := true
  dimmed := false
  timedOff := false
  forcedDark := false
  maskCount := 0
  allowance := 200
  warmTarget := 0
  coolTarget := 0
  warmOutput := 0
  coolOutput := 0
  autoDim := .stopped
  lightOff := .stopped
  ramp := .stopped

/-- The Power Controller's main-domain record after a reset (R156), before the Start step takes its samples. The candidate
band that goes with a band change count of 0 is log 58. -/
def Power.blank : Power where
  state := .bringup
  entry := none
  step := none
  dormantCauses := []
  shelfCauses := []
  heldWake := none
  heldShelf := none
  heldDue := false
  dueExhausted := false
  dueTimer := false
  retryExhausted := false
  attached := false
  entryFlush := none
  shelfFlush := none
  dormantDelay := .stopped
  band := .normal
  millivolts := 3700
  bandCount := 0
  candidate := .normal
  charger := false
  critical := .stopped
  criticalRanOut := false
  granted := []
  waiting := []
  lightClaim := 0
  turnBoost := false
  downloadBoost := false
  clock := .full
  residency := 0
  fromShelf := false
  transfersActive := false
  bringup := .settings

/-- An empty fault record (R180). -/
def FaultRecord.empty : FaultRecord := ⟨none, false, false⟩

/-- The Host Link Port after a reset (R194, R196, R201). -/
def HostLink.blank : HostLink where
  outstanding := []
  replies := []
  attention := 0
  out := .silent
  fetching := false
  restart := false
  nextId := 0

end Sys2Proof.Machine
end

