-- ==== Sys2Proof/Machine/State.lean ====
section
/-! DEFINITION. The state of the RFJ640, its reset value, and the reasons a step could stop. -/

namespace Sys2Proof.Machine

/-- Reasons for which the machine stops with a fault. There is none: the manual names no event after which the part
stops, and its own faults are entries of the fault record (chapter 9). -/
inductive Fault where
  deriving DecidableEq, Repr

/-- Reasons for which the model gives a command no meaning. -/
inductive Refusal where
  /-- A command of the table that the model has not reached; raised by an arm of `exec` only. Safe: the model stops
  where the part goes on. No arm raises it. -/
  | notModelled (mnemonic : String)
  deriving DecidableEq, Repr

/-- The four debounced key lines (R94); true: pressed. -/
structure KeyLines where
  fwd : Bool
  back : Bool
  light : Bool
  power : Bool
  deriving DecidableEq, Repr

/-- The whole state of the part: the blocks of the manual's block overview, the attached flash, the keep-alive
domain, the output lines, and the queue of waiting commands. -/
structure State where
  pending : List Instr
  cat : Catalogue
  blocks : BlockMap
  flash : FlashDevice
  port : FlashPort
  wb : WriteBack
  dl : Downloads
  radio : RadioStatus
  pm : PageMemory
  turn : TurnEngine
  keys : KeyLines
  panel : Panel
  waveform : Waveform
  light : Light
  power : Power
  keep : KeepAlive
  supplies : Supplies
  faults : FaultRecord
  settings : Settings
  storedSize : FlashSize
  settingsGood : Bool
  link : HostLink
  pins : Pins
  freeCount : Nat
  deriving DecidableEq, Repr

/-- Every main-domain block at its reset value with nothing begun, over an erased flash and a cold keep-alive
domain. DESIGN CHOICE (log 71): the waveform table in force until bring-up step 2 sets it (R189, R190) is the built-in one,
with its mark set. -/
def State.blank : State where
  pending := []
  cat := Catalogue.blank
  blocks := BlockMap.blank
  flash := FlashDevice.erased
  port := ⟨.idle, []⟩
  wb := WriteBack.blank
  dl := Downloads.blank
  radio := RadioStatus.blank
  pm := PageMemory.blank
  turn := TurnEngine.blank
  keys := ⟨false, false, false, false⟩
  panel := Panel.blank
  waveform := Waveform.standard
  light := Light.blank
  power := Power.blank
  keep := KeepAlive.cold
  supplies := ⟨true, true⟩
  faults := FaultRecord.empty
  settings := Settings.standard
  storedSize := .mib256
  settingsGood := false
  link := HostLink.blank
  pins := ⟨false, false⟩
  freeCount := 0

/-- The machine right after a cold start (R190, step Start; log 1): every block at its reset value, and the first
bring-up read, that of the settings, running at the flash port under its claim of 10. -/
def State.reset : State :=
  { State.blank with
    port := ⟨.busy ⟨0, false, .bringupRead .settings⟩, []⟩
    power := { Power.blank with granted := [⟨.port, 10⟩] }
    light := { Light.blank with allowance := 190 } }

end Sys2Proof.Machine
end

