-- ==== Sys2Proof/Machine/Wire.lean ====
section
/-! DEFINITION. The byte layouts that the host and the radio module see (section 11.7): byte order, checks, coded
values, and the wire form of statuses and replies. -/

namespace Sys2Proof.Machine

/-- The `n` bytes of `v`, least significant first (section 11.7). -/
def leBytes : Nat → Nat → List Byte
  | 0, _ => []
  | n + 1, v => BitVec.ofNat 8 v :: leBytes n (v / 256)

/-- The number that bytes hold, least significant first. -/
def leNat : List Byte → Nat
  | [] => 0
  | b :: bs => b.toNat + 256 * leNat bs

/-- The 16-bit words of a byte list, word n at bytes 2n and 2n + 1 (section 11.7). -/
def wordsOf : List Byte → List Nat
  | a :: b :: rest => (a.toNat + 256 * b.toNat) :: wordsOf rest
  | _ => []

/-- `n` shifts of the CRC-16 register: polynomial 0x1021, not reflected (Conventions). -/
def crc16Shift : Nat → Crc16 → Crc16
  | 0, c => c
  | n + 1, c => crc16Shift n (if c.msb then (c <<< 1) ^^^ 0x1021#16 else c <<< 1)

/-- CRC-16 of a byte list: initial value 0xFFFF, no final inversion (Conventions). -/
def crc16 (bytes : List Byte) : Crc16 :=
  bytes.foldl (fun c b => crc16Shift 8 (c ^^^ ((b.setWidth 16 : Crc16) <<< (8 : Nat)))) 0xFFFF#16

/-- `n` shifts of the CRC-32 register: the reflected form of 0x04C11DB7 (Conventions). -/
def crc32Shift : Nat → Crc32 → Crc32
  | 0, c => c
  | n + 1, c => crc32Shift n (if c.getLsbD 0 then (c >>> 1) ^^^ 0xEDB88320#32 else c >>> 1)

/-- Initial value of the CRC-32 register (Conventions). -/
def crc32Start : Crc32 := 0xFFFFFFFF#32

/-- The CRC-32 register after taking in bytes (R67). -/
def crc32Feed (c : Crc32) (bytes : List Byte) : Crc32 :=
  bytes.foldl (fun c b => crc32Shift 8 (c ^^^ b.setWidth 32)) c

/-- The CRC-32 that a register stands for: a final inversion (Conventions). -/
def crc32Finish (c : Crc32) : Crc32 := ~~~c

/-- CRC-32 of a byte list. -/
def crc32 (bytes : List Byte) : Crc32 := crc32Finish (crc32Feed crc32Start bytes)

/-- Request codes, from 0x01 in index order (section 11.5). -/
def RequestCode.toNat : RequestCode → Nat
  | .findTitle => 0x01 | .readTitleRecord => 0x02 | .listTitles => 0x03 | .readTitleBytes => 0x04
  | .setPosition => 0x05 | .setTag => 0x06 | .setLayoutGeneration => 0x07 | .setExpiry => 0x08
  | .holdTitle => 0x09 | .releaseTitle => 0x0A | .retireTitle => 0x0B | .flushCatalogue => 0x0C
  | .startDownload => 0x0D | .restartDownload => 0x0E | .cancelDownload => 0x0F | .readTransfer => 0x10
  | .claimSlot => 0x11 | .writePixels => 0x12 | .completeSlot => 0x13 | .freeSlot => 0x14
  | .readSlots => 0x15 | .readKeys => 0x16 | .setCurrentTitle => 0x17 | .clearCurrentTitle => 0x18
  | .resumeTurning => 0x19 | .setPassThrough => 0x1A | .goToPage => 0x1B | .readTurnState => 0x1C
  | .updateRegion => 0x1D | .cancelUpdates => 0x1E | .readPanel => 0x1F | .setLight => 0x20
  | .readLight => 0x21 | .enterReading => 0x22 | .resumeActive => 0x23 | .enterDormant => 0x24
  | .enterShelf => 0x25 | .armWake => 0x26 | .setTime => 0x27 | .setAlarm => 0x28
  | .readPower => 0x29 | .readFault => 0x2A | .clearFault => 0x2B | .writeSettings => 0x2C
  | .readSettings => 0x2D | .writeWaveforms => 0x2E | .status => 0x2F | .fetchReply => 0x30
  | .ackAttention => 0x31 | .resetLink => 0x32 | .restart => 0x33

/-- Result codes, from 0x00 in table order (section 11.6). -/
def Result.toNat : Result → Nat
  | .ok => 0x00 | .notFound => 0x01 | .badHandle => 0x02 | .wrongState => 0x03 | .staleRevision => 0x04
  | .staleGeneration => 0x05 | .duplicateKey => 0x06 | .noHandle => 0x07 | .noSpace => 0x08 | .fragmented => 0x09
  | .noTransferSlot => 0x0A | .holdLimit => 0x0B | .notHeld => 0x0C | .expired => 0x0D | .misaligned => 0x0E
  | .outOfRange => 0x0F | .queueFull => 0x10 | .noSlot => 0x11 | .duplicatePage => 0x12 | .slotState => 0x13
  | .inDrive => 0x14 | .sourceGone => 0x15 | .dataError => 0x16 | .panelFault => 0x17 | .cancelled => 0x18
  | .halted => 0x19 | .badImage => 0x1A | .timeNotSet => 0x1B | .asleep => 0x1C | .done => 0x1D

/-- Immediate status codes (section 11.7). -/
def Immediate.toNat : Immediate → Nat
  | .accepted => 0x00 | .busy => 0x01 | .tagInUse => 0x02 | .frameError => 0x03 | .unknownRequest => 0x04
  | .starting => 0x05

/-- Radio status codes (section 11.7). -/
def RadioCode.toNat : RadioCode → Nat
  | .accepted => 0x00 | .duplicate => 0x01 | .badCheck => 0x02 | .noTransfer => 0x03 | .outOfRange => 0x04
  | .badLength => 0x05 | .noBuffer => 0x06 | .suspended => 0x07 | .ended => 0x08 | .missing => 0x09

/-! ### Coded values (R204): the position in the list where the manual gives the field's values -/

/-- Position of a title state (section 1.1). -/
def TitleState.toNat : TitleState → Nat
  | .empty => 0 | .fetching => 1 | .ready => 2 | .incomplete => 3 | .expired => 4 | .retiring => 5

/-- Position of a last fetch result (section 1.1). -/
def FetchResult.toNat : FetchResult → Nat
  | .noResult => 0 | .done => 1 | .timeout => 2 | .check => 3 | .flash => 4 | .cancelled => 5 | .expired => 6
  | .reset => 7

/-- Position of a transfer state (section 3.1); also byte 5 of the radio status. -/
def TransferState.toNat : TransferState → Nat
  | .free => 0 | .receiving => 1 | .suspended => 2 | .verifying => 3

/-- Position of a page slot state (section 4.2). -/
def PageSlotState.toNat : PageSlotState → Nat
  | .free => 0 | .filling => 1 | .ready => 2 | .shown => 3

/-- Position of a mode hint (section 4.2). -/
def ModeHint.toNat : ModeHint → Nat
  | .grey16 => 0 | .clear => 1

/-- Position of a key (R94). -/
def keyCode : Key → Nat
  | .fwd => 0 | .back => 1 | .light => 2 | .power => 3

/-- Position of a key queue reason (R96). -/
def KeyReason.toNat : KeyReason → Nat
  | .passed => 0 | .missed => 1 | .fenced => 2 | .stopped => 3 | .power => 4

/-- Position of a Turn Engine state (section 5.3). -/
def TurnState.toNat : TurnState → Nat
  | .off => 0 | .ready => 1 | .turning => 2 | .stopped => 3 | .pass => 4

/-- Position of a stop reason (section 5.3). -/
def StopReason.toNat : StopReason → Nat
  | .miss => 0 | .fence => 1 | .expired => 2 | .retiring => 3

/-- Position of a turn direction (section 5.3). -/
def TurnDirection.toNat : TurnDirection → Nat
  | .fwd => 0 | .back => 1 | .goTo => 2

/-- Position of a mode (R117, section 6.2). -/
def Mode.toNat : Mode → Nat
  | .clear => 0 | .grey16 => 1 | .mono => 2 | .sketch => 3

/-- Position of an update origin (section 6.2). -/
def UpdateOrigin.toNat : UpdateOrigin → Nat
  | .host => 0 | .turn => 1

/-- Position of a lane state (section 6.5). -/
def LaneState.toNat : LaneState → Nat
  | .idle => 0 | .loading => 1 | .loaded => 2 | .driving => 3 | .settling => 4

/-- Position of a panel supply state (R134). -/
def SupplyState.toNat : SupplyState → Nat
  | .off => 0 | .rising => 1 | .on => 2

/-- Position of a ramp state (section 7.1). -/
def RampState.toNat : RampState → Nat
  | .off => 0 | .rising => 1 | .steady => 2 | .falling => 3

/-- Position of a power state (R156). -/
def PowerState.toNat : PowerState → Nat
  | .bringup => 0 | .active => 1 | .reading => 2 | .dormant => 3 | .shelf => 4

/-- Position of the entry in progress (R156): None, DORMANT entry, SHELF entry. -/
def entryCode : Option EntryKind → Nat
  | none => 0 | some .dormant => 1 | some .shelf => 2

/-- Number of a DORMANT entry step (R160), as READ POWER carries it (log 60). -/
def EntryStep.toNat : EntryStep → Nat
  | .lanes => 1 | .light => 2 | .transfers => 3 | .flush => 4 | .pageMemory => 5

/-- Position of a battery band (R156). -/
def Band.toNat : Band → Nat
  | .normal => 0 | .low => 1 | .critical => 2 | .exhausted => 3

/-- Position of a clock rate (R156). -/
def ClockRate.toNat : ClockRate → Nat
  | .full => 0 | .economy => 1

/-- Position of a fault kind (R181). -/
def FaultKind.toNat : FaultKind → Nat
  | .flashWrite => 0 | .pageMemory => 1 | .panelSupply => 2 | .catalogueSlot => 3 | .catalogueConflict => 4
  | .segmentWrite => 5 | .pageMemoryCorrected => 6 | .extentRange => 7 | .settings => 8 | .waveform => 9

/-- Code of a flash size (word 1 of the settings image). -/
def FlashSize.toNat : FlashSize → Nat
  | .mib64 => 0 | .mib128 => 1 | .mib256 => 2 | .mib512 => 3

/-- A flag on the wire: set, on, present and CAPABLE are 1 (R204). -/
def flagNat (b : Bool) : Nat := if b then 1 else 0

/-! ### Items of a payload (R204) -/

/-- A one-byte number or coded value. -/
def item1 (n : Nat) : List Byte := leBytes 1 n

/-- A two-byte number. -/
def item2 (n : Nat) : List Byte := leBytes 2 n

/-- A four-byte number. -/
def item4 (n : Nat) : List Byte := leBytes 4 n

/-- A flag item. -/
def itemFlag (b : Bool) : List Byte := item1 (flagNat b)

/-- A one-byte number whose range reaches below 0, in two's complement. -/
def itemSigned (i : Int) : List Byte := [BitVec.ofInt 8 i]

/-- A rectangle: x, y, w and h, 2 bytes each. -/
def itemRect (r : Rect) : List Byte := item2 r.x ++ item2 r.y ++ item2 r.w ++ item2 r.h

/-- An optional item of `width` bytes: a presence byte, then the item, whose bytes are 0 when absent. -/
def itemOption (width : Nat) : Option Nat → List Byte
  | none => item1 0 ++ leBytes width 0
  | some v => item1 1 ++ leBytes width v

/-- A list: a 2-byte count of entries, then the entries. -/
def itemList (entries : List (List Byte)) : List Byte := item2 entries.length ++ entries.flatten

/-! ### Headers, statuses and replies -/

/-- The eight header bytes of a request frame (section 11.7). -/
def requestHeader (code : Nat) (f : Frame) : List Byte :=
  let front := [0x4A, BitVec.ofNat 8 code, BitVec.ofNat 8 f.tag.val, f.flags] ++ leBytes 2 f.payload.length
  front ++ leBytes 2 (crc16 front).toNat

/-- The eight header bytes are good: sync byte, header check, tag and payload length (R192, section 11.7). -/
def headerGood (header : List Byte) : Bool :=
  header.getD 0 0 == 0x4A && decide ((header.getD 2 0).toNat ≤ 15) && decide (leNat ((header.drop 4).take 2) ≤ 16384)
    && leNat ((header.drop 6).take 2) == (crc16 (header.take 6)).toNat

/-- The CRC-16 over header and payload is the one received (R193, check 1). -/
def Frame.crcGood (code : Nat) (f : Frame) : Bool := crc16 (requestHeader code f ++ f.payload) == f.crc

/-- The wire form of the immediate status; FRAME_ERROR is four bytes of 0x03 (section 11.7). -/
def ImmediateStatus.wire (s : ImmediateStatus) : List Byte :=
  if s.code = .frameError then List.replicate 4 0x03
  else item1 s.code.toNat ++ item1 s.tag.val ++ item1 s.outstanding ++ item1 s.replies

/-- The code byte of a reply header; 0x00 for an empty fetch (R197). -/
def Reply.codeByte (r : Reply) : Nat := (r.code.map RequestCode.toNat).getD 0

/-- The wire form of a reply or in-line answer (section 11.7). -/
def Reply.wire (r : Reply) : List Byte :=
  let front := [0x4B, BitVec.ofNat 8 r.codeByte, BitVec.ofNat 8 r.tag.val, BitVec.ofNat 8 r.result.toNat]
    ++ leBytes 2 r.payload.length
  let head := front ++ leBytes 2 (crc16 front).toNat
  head ++ r.payload ++ leBytes 2 (crc16 (head ++ r.payload)).toNat

/-- The wire form of the radio status (section 11.7). -/
def RadioStatus.wire (r : RadioStatus) : List Byte :=
  item1 r.code.toNat ++ [r.tag] ++ leBytes 2 r.index.toNat ++ item1 r.free ++ item1 r.slotState ++ item2 r.received
    ++ item2 r.firstMissing ++ item2 r.missing

/-- The frame check of a radio frame: CRC-32 over bytes 1-5 and the payload (section 11.7). -/
def RadioFrame.checkGood (r : RadioFrame) : Bool :=
  crc32 ([r.tag] ++ leBytes 2 r.index.toNat ++ leBytes 2 r.length.toNat ++ r.payload) == r.check

end Sys2Proof.Machine
end

