-- ==== Sys2Proof/Machine/Operands.lean ====
section
/-! DEFINITION. The operand forms of the requests: the flags byte and expected revision (R195), the payload lengths
each request allows, and the reading of items from a payload (R204). -/

namespace Sys2Proof.Machine

/-- EXPECT_REVISION is set (R195). -/
def Frame.expects (f : Frame) : Bool := f.flags.getLsbD 0

/-- The flags hold no bit other than EXPECT_REVISION (R193, check 1). -/
def Frame.flagsGood (f : Frame) : Bool := (f.flags &&& 0xFE#8) == 0#8

/-- The payload without the expected revision that R195 puts into its last 2 bytes. -/
def Frame.body (f : Frame) : List Byte :=
  if Frame.expects f then f.payload.take (f.payload.length - 2) else f.payload

/-- The expected revision, if one is carried (R195). -/
def Frame.revision (f : Frame) : Option Revision :=
  if Frame.expects f then some (BitVec.ofNat 16 (leNat (f.payload.drop (f.payload.length - 2)))) else none

/-- The number in the `n` bytes from offset `off` (section 11.7). -/
def field (p : List Byte) (off n : Nat) : Nat := leNat ((p.drop off).take n)

/-- An optional item of `n` bytes behind its presence byte at `off` (R204); `none` when the presence byte is neither 0
nor 1 (log 26). DESIGN CHOICE (log 73): behind a presence byte of 0 the item is absent whatever its bytes are. -/
def optionField (p : List Byte) (off n : Nat) : Option (Option Nat) :=
  match field p off 1 with
  | 0 => some none
  | 1 => some (some (field p (off + 1) n))
  | _ => none

/-- A flag byte (R204); `none` when it is neither 0 nor 1. -/
def flagField (p : List Byte) (off : Nat) : Option Bool :=
  match field p off 1 with
  | 0 => some false
  | 1 => some true
  | _ => none

/-- A rectangle item (R204). -/
def rectField (p : List Byte) (off : Nat) : Rect :=
  ⟨field p off 2, field p (off + 2) 2, field p (off + 4) 2, field p (off + 6) 2⟩

/-- A mode item; `none` outside the four modes (R117, check 1). -/
def modeField (p : List Byte) (off : Nat) : Option Mode :=
  match field p off 1 with
  | 0 => some .clear
  | 1 => some .grey16
  | 2 => some .mono
  | 3 => some .sketch
  | _ => none

/-- A mode hint item; `none` outside GREY16 and CLEAR (R81, check 2). -/
def hintField (p : List Byte) (off : Nat) : Option ModeHint :=
  match field p off 1 with
  | 0 => some .grey16
  | 1 => some .clear
  | _ => none

/-- The in-line requests (R193). -/
def RequestCode.inline : RequestCode → Bool
  | .status | .fetchReply | .ackAttention | .resetLink => true
  | _ => false

/-- The seven change requests that may carry an expected revision (R4). -/
def RequestCode.isChange : RequestCode → Bool
  | .setPosition | .setTag | .setLayoutGeneration | .setExpiry | .holdTitle | .releaseTitle | .retireTitle => true
  | _ => false

/-- The requests taken during an entry and in DORMANT (R166). -/
def RequestCode.takenAsleep : RequestCode → Bool
  | .status | .fetchReply | .ackAttention | .resetLink | .restart => true
  | .findTitle | .readTitleRecord | .listTitles | .readTitleBytes | .readTransfer | .readSlots | .readKeys
  | .readTurnState | .readPanel | .readLight | .readPower | .readFault | .readSettings => true
  | .resumeActive | .enterShelf | .setTime | .armWake => true
  | _ => false

/-- The payload length that a request allows, without an expected revision (R195, R204); `body` matters only where the
length follows from the request's own fields. WRITE WAVEFORMS allows every length, and its image is judged by R189 (log 61);
the pixel data of an odd number of pixels is rounded down to whole bytes (log 62). -/
def RequestCode.lengthGood (c : RequestCode) (body : List Byte) : Bool :=
  match c with
  | .findTitle => body.length == 8
  | .readTitleRecord | .holdTitle | .releaseTitle | .retireTitle => body.length == 2
  | .restartDownload | .cancelDownload | .readTransfer => body.length == 2
  | .listTitles | .setPosition | .setCurrentTitle | .setTime => body.length == 4
  | .readTitleBytes => body.length == 8
  | .setTag | .setLayoutGeneration => body.length == 3
  | .setExpiry | .claimSlot => body.length == 7
  | .startDownload => body.length == 23
  | .writePixels => decide (9 ≤ body.length) && body.length == 9 + (rectField body 1).w * (rectField body 1).h / 2
  | .completeSlot => body.length == 6
  | .freeSlot | .readKeys | .setPassThrough | .goToPage | .cancelUpdates => body.length == 1
  | .updateRegion => body.length == 11
  | .setLight | .setAlarm => body.length == 5
  | .armWake | .ackAttention => body.length == 2
  | .writeSettings => body.length == 2048
  | .writeWaveforms => true
  | .flushCatalogue | .readSlots | .clearCurrentTitle | .resumeTurning | .readTurnState | .readPanel | .readLight
  | .enterReading | .resumeActive | .enterDormant | .enterShelf | .readPower | .readFault | .clearFault
  | .readSettings | .status | .fetchReply | .resetLink | .restart => body.length == 0

end Sys2Proof.Machine
end

