-- ==== Sys2Proof/Machine/Flags.lean ====
section
/-! DEFINITION. Flags and lines: the attention set (R201), the reasons that count (R168), ATTN_N (R202), RRDY (R63),
the wake arming (R167), the fault record's marks (R182, R183), and the conditions that several rules test. -/

namespace Sys2Proof.Machine

/-- Position of a reason in the order of R201. -/
def Reason.index : Reason → Nat
  | .keys => 0 | .keysLost => 1 | .turnStopped => 2 | .refill => 3 | .downloadDone => 4 | .downloadFailed => 5
  | .titleExpired => 6 | .titleRetired => 7 | .fault => 8 | .battery => 9 | .alarm => 10 | .bringupDone => 11

/-- The set that holds one reason. -/
def Reason.bit (r : Reason) : ReasonSet := 1#12 <<< r.index

/-- The reason is set. -/
def State.reasonSet (s : State) (r : Reason) : Bool := s.link.attention.getLsbD r.index

/-- Posts an attention reason (R201). -/
def post (r : Reason) (s : State) : State :=
  { s with link.attention := s.link.attention ||| r.bit }

/-- The main domain has power: the main supply is present and the part is not in SHELF (R164, R191). -/
def State.powered (s : State) : Bool := s.supplies.main && s.power.state != .shelf

/-- The part is in ACTIVE or READING with no entry in progress (R166). -/
def State.awake (s : State) : Bool :=
  (s.power.state == .active || s.power.state == .reading) && s.power.entry.isNone

/-- An entry is in progress, or the part is in DORMANT: the states in which R166 answers most requests ASLEEP. -/
def State.asleep (s : State) : Bool := s.power.entry.isSome || s.power.state == .dormant

/-- The armed reasons (word 27 order, bits 4-15). -/
def State.armedReasons (s : State) : ReasonSet := s.keep.arming.extractLsb' 4 12

/-- The reasons that count toward ATTN_N (R168): all that are set in ACTIVE with no entry in progress, the armed ones
otherwise. -/
def State.countedReasons (s : State) : ReasonSet :=
  if s.power.state = .active ∧ s.power.entry = none then s.link.attention
  else s.link.attention &&& s.armedReasons

/-- The condition of ATTN_N (R202). -/
def State.attnCondition (s : State) : Bool :=
  s.powered && (!s.link.replies.isEmpty || s.countedReasons != 0#12)

/-- Segment buffers that are free (R59, R63). -/
def State.freeBuffers (s : State) : Nat := (s.dl.buffers.toList.filter Option.isNone).length

/-- The condition of RRDY (R63). -/
def State.rrdyCondition (s : State) : Bool :=
  s.powered && decide (0 < s.freeBuffers) && (s.power.state == .active || s.power.state == .reading)
    && !s.dl.suspended

/-- The output lines follow their conditions (R63, R202). -/
def refreshPins (s : State) : State := { s with pins := ⟨s.attnCondition, s.rrdyCondition⟩ }

/-- The key is armed (R167). -/
def State.keyArmed (s : State) (k : Key) : Bool := s.keep.arming.getLsbD (keyCode k)

/-- Severity of a fault kind (R181). -/
def FaultKind.severe : FaultKind → Bool
  | .flashWrite | .pageMemory | .panelSupply | .catalogueSlot | .catalogueConflict => true
  | .segmentWrite | .pageMemoryCorrected | .extentRange | .settings | .waveform => false

/-- The record holds a severe fault (R183). -/
def FaultRecord.holdsSevere (r : FaultRecord) : Bool :=
  match r.captured with
  | none => false
  | some c => c.kind.severe || r.furtherSevere

/-- A report reaches the Fault Capture Unit (R182). -/
def reportFault (kind : FaultKind) (location : Option Nat) (s : State) : State :=
  match s.faults.captured with
  | none =>
    post .fault { s with faults := ⟨some ⟨kind, location, s.keep.seconds, s.keep.valid⟩, false, false⟩ }
  | some _ =>
    let t := { s with faults.further := true, faults.furtherSevere := s.faults.furtherSevere || kind.severe }
    if !s.faults.further || (kind.severe && !s.faults.furtherSevere) then post .fault t else t

/-- An output of the light differs from its target (R146). -/
def Light.ramping (l : Light) : Bool := l.warmOutput != l.warmTarget || l.coolOutput != l.coolTarget

/-- The ramp state (R146). -/
def Light.rampState (l : Light) : RampState :=
  if l.ramping then
    if l.warmTarget + l.coolTarget < l.warmOutput + l.coolOutput then .falling else .rising
  else if l.warmOutput = 0 ∧ l.coolOutput = 0 then .off
  else .steady

/-- Starts a timer of `ms`; a delay of 0 never runs (R148, R149). -/
def Timer.start (ms : Nat) : Timer := if ms = 0 then .stopped else .running ms

/-- The timer runs. -/
def Timer.isRunning : Timer → Bool
  | .stopped => false
  | .running _ => true

/-- One millisecond passes for a timer. -/
def Timer.tick : Timer → Timer
  | .stopped => .stopped
  | .running n => .running (n - 1)

/-- Time left in whole seconds, rounded up, absent when stopped. -/
def Timer.secondsLeft : Timer → Option Nat
  | .stopped => none
  | .running n => some ((n + 999) / 1000)

end Sys2Proof.Machine
end

