-- ==== Sys2Proof/Machine/Ops.lean ====
section
/-! DEFINITION. The named operations that every chapter shares: byte memories, title records and their reports to
write-back, replies, budget claims, and the operations waiting at the flash port. -/

namespace Sys2Proof.Machine

/-! ### Byte memories

Page memory and the title content are lists of (address, byte) pairs, addresses strictly rising, no pair holding the
byte that an unlisted address reads as. That byte is 0xFF for both: two white pixels (R80), and erased flash (log 16). -/

/-- What an unlisted address reads as. -/
def Memory.unlisted : Byte := 0xFF#8

/-- The canonical form. -/
abbrev Memory.wf (m : List Host.Cell) : Prop :=
  m.Pairwise (fun a b => a.1 < b.1) ∧ ∀ c ∈ m, c.2 ≠ Memory.unlisted

/-- The byte at an address. -/
def Memory.read (m : List Host.Cell) (a : Nat) : Byte := (m.lookup a).getD Memory.unlisted

/-- The `n` bytes from an address. -/
def Memory.readRange (m : List Host.Cell) (a n : Nat) : List Byte := (List.range n).map fun i => Memory.read m (a + i)

/-- The listed cells of the `n` bytes from an address. -/
def Memory.window (m : List Host.Cell) (a n : Nat) : List Host.Cell :=
  m.filter fun c => decide (a ≤ c.1) && decide (c.1 < a + n)

/-- Puts cells in place of the `n` bytes from an address. The cells lie in that range. -/
def Memory.splice (m : List Host.Cell) (a n : Nat) (cells : List Host.Cell) : List Host.Cell :=
  m.filter (fun c => decide (c.1 < a)) ++ Memory.window cells a n ++ m.filter (fun c => decide (a + n ≤ c.1))

/-- The cells that list bytes from an address. -/
def Memory.cellsOf : Nat → List Byte → List Host.Cell
  | _, [] => []
  | a, b :: bs => if b = Memory.unlisted then Memory.cellsOf (a + 1) bs else (a, b) :: Memory.cellsOf (a + 1) bs

/-- Moves the cells of one frame or block to another base. -/
def Memory.shift (source target : Nat) (m : List Host.Cell) : List Host.Cell :=
  m.map fun c => (c.1 - source + target, c.2)

/-- Writes bytes from an address. -/
def Memory.store (m : List Host.Cell) (a : Nat) (bytes : List Byte) : List Host.Cell :=
  Memory.splice m a bytes.length (Memory.cellsOf a bytes)

/-- Returns the `n` bytes from an address to the unlisted value. -/
def Memory.wipe (m : List Host.Cell) (a n : Nat) : List Host.Cell := Memory.splice m a n []

/-! ### Title records (R1, R3, R5) -/

/-- A handle names a record (R1). -/
def validHandle (h : Nat) : Bool := decide (1 ≤ h) && decide (h ≤ 1024)

/-- The record of a handle; an EMPTY one for a number that is no handle. -/
def State.recordAt (s : State) (h : Nat) : TitleRecord :=
  if g : 1 ≤ h ∧ h ≤ 1024 then s.cat.records[h - 1]'(by omega) else TitleRecord.blank

/-- Replaces the record of a handle; changes nothing for a number that is no handle. -/
def setRecord (h : Nat) (r : TitleRecord) (s : State) : State :=
  if g : 1 ≤ h ∧ h ≤ 1024 then { s with cat.records := s.cat.records.set (h - 1) r (by omega) } else s

/-- All handles, ascending. -/
def handles : List Nat := (List.range 1024).map (· + 1)

/-- The catalogue sector of a handle (R1). -/
def sectorOf (h : Nat) : Nat := (h - 1) / 16

/-- The 16 handles of a sector (R1). -/
def sectorHandles (sector : Nat) : List Nat := (List.range 16).map fun i => 16 * sector + i + 1

/-- A record's sector is reported to the Write-back Engine (R40). -/
def reportSector (sector : Nat) (s : State) : State :=
  if s.wb.queue.any (fun e => e.sector == sector) then s
  else { s with wb.queue := s.wb.queue ++ [⟨sector, s.wb.elapsed⟩] }

/-- An event changes persisted fields of a record: the revision rises by 1, the record becomes dirty and its sector is
reported (R3, R5). -/
def changeRecord (h : Nat) (f : Persisted → Persisted) (s : State) : State :=
  if validHandle h then
    let r := s.recordAt h
    reportSector (sectorOf h)
      (setRecord h { r with toPersisted := { f r.toPersisted with revision := r.revision + 1 }, dirty := true } s)
  else s

/-- A change that counts only where it alters a persisted field (R3). -/
def editRecord (h : Nat) (f : Persisted → Persisted) (s : State) : State :=
  if f (s.recordAt h).toPersisted = (s.recordAt h).toPersisted then s else changeRecord h f s

/-- Changes the hold count of a record, which dirties nothing (R20, R21). -/
def setHolds (h n : Nat) (s : State) : State := setRecord h { s.recordAt h with holds := n } s

/-- The revision of a record as a reply carries it. -/
def revisionItem (h : Nat) (s : State) : List Byte := item2 (s.recordAt h).revision.toNat

/-! ### Replies (R196) -/

/-- The owning block answers request `id`: the reply joins the queue, or is discarded if a link reset has detached the
request. -/
def answer (id : Nat) (result : Result) (payload : List Byte) (s : State) : State :=
  match s.link.outstanding.find? (fun o => o.id == id && !o.replied) with
  | none => s
  | some o =>
    { s with
      link.replies := s.link.replies ++ [⟨o.tag, some o.code, result, payload⟩]
      link.outstanding := s.link.outstanding.map fun p => if p.id = id then { p with replied := true } else p }

/-- Answers several requests alike, in order. -/
def answerAll (ids : List Nat) (result : Result) (payload : List Byte) (s : State) : State :=
  ids.foldl (fun t id => answer id result payload t) s

/-- The tag of a request, if it is outstanding. -/
def State.tagOf (s : State) (id : Nat) : Option Nat :=
  (s.link.outstanding.find? fun o => o.id == id).map fun o => o.tag.val

/-! ### The supply budget (R172, R173) -/

/-- The ceiling in force (R172). -/
def State.ceiling (s : State) : Nat :=
  match s.power.band with
  | .normal => s.settings.ceilingNormal
  | .low => s.settings.ceilingLow
  | .critical | .exhausted => s.settings.ceilingCritical

/-- Sum of the granted claims other than the light's. -/
def State.grantedSum (s : State) : Nat := (s.power.granted.map (·.units)).sum

/-- Units of the head waiting claim, 0 if none waits. -/
def State.headUnits (s : State) : Nat := (s.power.waiting.head?.map (·.units)).getD 0

/-- The allowance of the light (R173). -/
def State.allowance (s : State) : Nat := s.ceiling - s.grantedSum - s.headUnits

/-- A claim joins the waiting list at its tail (R172). -/
def placeClaim (owner : ClaimOwner) (units : Nat) (s : State) : State :=
  { s with power.waiting := s.power.waiting ++ [⟨owner, units⟩] }

/-- A granted claim is given back. -/
def giveBack (owner : ClaimOwner) (s : State) : State :=
  { s with power.granted := s.power.granted.filter fun c => decide (c.owner ≠ owner) }

/-- A waiting claim is withdrawn. -/
def withdrawClaim (owner : ClaimOwner) (s : State) : State :=
  { s with power.waiting := s.power.waiting.filter fun c => decide (c.owner ≠ owner) }

/-! ### Operations waiting at the flash port (R34, R36) -/

/-- An owner places an operation. -/
def placeOp (cls : Nat) (held : Bool) (job : FlashJob) (s : State) : State :=
  { s with port.waiting := s.port.waiting ++ [⟨cls, held, job⟩] }

/-- An owner withdraws its waiting operations. -/
def withdrawOps (which : FlashJob → Bool) (s : State) : State :=
  { s with port.waiting := s.port.waiting.filter fun op => !which op.job }

/-- The running operation has ended: the claim is given back and the port is IDLE (R35). -/
def endOperation (s : State) : State := giveBack .port { s with port.phase := .idle }

/-- The running operation, if the port is BUSY. -/
def State.running (s : State) : Option FlashJob :=
  match s.port.phase with
  | .busy op => some op.job
  | _ => none

/-- The operation that has been granted the port, CLAIMING or BUSY (R35). -/
def State.granted (s : State) : Option FlashJob :=
  match s.port.phase with
  | .busy op => some op.job
  | .claiming op => some op.job
  | .idle => none

/-! ### Slots, lanes and the like, by number -/

/-- The 28 page slots in order. -/
def slotIds : List (Fin 28) :=
  [0, 1, 2, 3, 4, 5, 6, 7, 8, 9, 10, 11, 12, 13, 14, 15, 16, 17, 18, 19, 20, 21, 22, 23, 24, 25, 26, 27]

/-- The four drive lanes, transfer slots or segment buffers in order. -/
def fourIds : List (Fin 4) := [0, 1, 2, 3]

/-- Replaces a page slot record. -/
def setSlot (i : Fin 28) (p : PageSlot) (s : State) : State := { s with pm.slots := s.pm.slots.set i p }

/-- Replaces a drive lane. -/
def setLane (i : Fin 4) (l : Lane) (s : State) : State := { s with panel.lanes := s.panel.lanes.set i l }

/-- Replaces a transfer slot. -/
def setTransfer (i : Fin 4) (t : TransferSlot) (s : State) : State := { s with dl.slots := s.dl.slots.set i t }

/-- Replaces a segment buffer. -/
def setBuffer (i : Fin 4) (b : Option Segment) (s : State) : State := { s with dl.buffers := s.dl.buffers.set i b }

/-- What the owning block does with a request that it is handed: an answer at once that changes nothing else, or a
new state, in which the block has answered or holds the reply. -/
inductive Verdict where
  | answered (result : Result) (payload : List Byte)
  | acted (t : State)

end Sys2Proof.Machine
end

