-- ==== Sys2Proof/Machine/LightOps.lean ====
section
/-! DEFINITION. The computations of the Light Engine: the sinks (R140), the ambient factor (R142), the codes and targets
(R143, R144), the claim (R145), the ramp (R146), and the effects of activity (R147). -/

namespace Sys2Proof.Machine

/-- The current in mA with which a channel code drives its sink (R140). -/
def sinkCurrent (code : Nat) : Rat := mkRat (code * 25) 1023

/-- The currents of the warm and the cool sink in mA: they follow the two outputs (R140). -/
def State.sinkCurrents (s : State) : Rat × Rat := (sinkCurrent s.light.warmOutput, sinkCurrent s.light.coolOutput)

/-- The round-scale product of two Q15 values (Conventions). -/
def roundScale (a b : Nat) : Nat := (a * b + 16384) / 32768

/-- The factor between two points of the ambient table for a reading between theirs; the quotient's integer part is
taken toward zero (R142). -/
def interpolate (r0 f0 r1 f1 r : Nat) : Nat :=
  if f0 ≤ f1 then f0 + (f1 - f0) * (r - r0) / (r1 - r0) else f0 - (f0 - f1) * (r - r0) / (r1 - r0)

/-- The factor of an average reading by an ambient table (R142). -/
def ambientFactor (r : Nat) : List (Nat × Nat) → Nat
  | [] => 0
  | [p] => p.2
  | p :: q :: rest =>
    if r ≤ p.1 then p.2 else if r < q.1 then interpolate p.1 p.2 q.1 q.2 r else ambientFactor r (q :: rest)

/-- The ambient table of the working settings. -/
def Settings.ambientTable (c : Settings) : List (Nat × Nat) := c.ambientReadings.zip c.ambientFactors

/-- The average of the four readings, rounded down (R142). -/
def Light.average (l : Light) : Nat := l.history.sum / 4

/-- An ambient sample: the oldest reading is replaced, or all four after bring-up and after DORMANT (R142). -/
def takeAmbient (reading : Nat) (s : State) : State :=
  let history := if s.light.refill then [reading, reading, reading, reading] else s.light.history.drop 1 ++ [reading]
  { s with
    light.history := history
    light.refill := false
    light.factor := ambientFactor (history.sum / 4) s.settings.ambientTable }

/-- The cap of the battery band in force (R151). -/
def State.bandCap (s : State) : Nat :=
  match s.power.band with
  | .normal => s.settings.capNormal
  | .low => s.settings.capLow
  | .critical => s.settings.capCritical
  | .exhausted => s.settings.capExhausted

/-- The light is lit by choice (section 7.1). -/
def Light.lit (l : Light) : Bool := l.switch && !l.timedOff && !l.forcedDark

/-- Number of lanes that drive a CLEAR (R135). -/
def State.clearDriving (s : State) : Nat :=
  (s.panel.lanes.toList.filter fun l => l.state == .driving && l.mode == .clear).length

/-- The intensity after steps 1 to 4 (R143). -/
def State.intensity (s : State) : Nat :=
  let base := s.settings.levelCurve.getD s.light.level 0
  let t1 := if s.light.auto then roundScale base s.light.factor else base
  let t2 := if s.light.dimmed then roundScale t1 s.settings.dimFactor else t1
  let t3 := if s.clearDriving ≠ 0 ∧ s.settings.masking = true then roundScale t2 s.settings.maskFactor else t2
  min t3 s.bandCap

/-- The codes of step 6, before clamping (R143). While the light is not lit by choice the targets are 0, and the codes, which
READ LIGHT then carries, are 0 as well (log 57). -/
def State.unclampedCodes (s : State) : Nat × Nat :=
  if s.light.lit then
    (roundScale s.intensity s.light.warmth / 32, roundScale s.intensity (32767 - s.light.warmth) / 32)
  else (0, 0)

/-- The code sum that an allowance admits (R144). -/
def codeSum (allowance : Nat) : Nat := allowance * 1023 / 25

/-- The codes clamped to an allowance (R144). -/
def clampCodes (allowance : Nat) (codes : Nat × Nat) : Nat × Nat :=
  if codes.1 + codes.2 ≤ codeSum allowance then codes
  else (codes.1 * codeSum allowance / (codes.1 + codes.2), codes.2 * codeSum allowance / (codes.1 + codes.2))

/-- The claim of outputs and targets (R145). The tables of section 7.1, R156 and section 8.8 give it the range 0..25, and
R145's formula exceeds 25 while outputs and targets cross at a change of the warmth. DESIGN CHOICE (log 74): the formula
stands, without a limit at 25. -/
def lightClaimOf (warmOutput coolOutput warmTarget coolTarget : Nat) : Nat :=
  ((max warmOutput warmTarget + max coolOutput coolTarget) * 25 + 1022) / 1023

/-- The Light Engine recomputes: mask count, allowance, targets, outputs lowered at once where the claim would not fit,
claim, and the ramp timer (R143, R144, R145, R146, R150). R140 and R144 lower outputs at once when the allowance falls, and
R144 has the claim within the allowance at the end of every event. DESIGN CHOICE (log 69): new targets under an unchanged
allowance whose claim would not fit lower the outputs above them at once as well. -/
def lightFit (s : State) : State :=
  let p := s.allowance
  let targets := clampCodes p s.unclampedCodes
  let fits := decide (lightClaimOf s.light.warmOutput s.light.coolOutput targets.1 targets.2 ≤ p)
  let warm := if fits then s.light.warmOutput else min s.light.warmOutput targets.1
  let cool := if fits then s.light.coolOutput else min s.light.coolOutput targets.2
  let ramping := warm != targets.1 || cool != targets.2
  { s with
    light.maskCount := s.clearDriving
    light.allowance := p
    light.warmTarget := targets.1
    light.coolTarget := targets.2
    light.warmOutput := warm
    light.coolOutput := cool
    light.ramp := if ramping then (if s.light.ramp.isRunning then s.light.ramp else .running 8) else .stopped
    power.lightClaim := lightClaimOf warm cool targets.1 targets.2 }

/-- An output moves toward its target by a step, or onto it if it is nearer (R146). -/
def stepToward (step output target : Nat) : Nat :=
  if output ≤ target then min (output + step) target else max (output - step) target

/-- One ramp step (R146). -/
def rampOnce (s : State) : State :=
  let step := 2 ^ (s.settings.rampRate + 4)
  { s with
    light.warmOutput := stepToward step s.light.warmOutput s.light.warmTarget
    light.coolOutput := stepToward step s.light.coolOutput s.light.coolTarget
    light.ramp := .running 8 }

/-- Milliseconds of the auto-dim delay (R148). -/
def State.autoDimMs (s : State) : Nat := s.settings.autoDimDelay * 1000

/-- Milliseconds of the light-off delay (R149). -/
def State.lightOffMs (s : State) : Nat := s.settings.lightOffDelay * 1000

/-- The dormant delay starts; a delay of 0 never runs (R159). -/
def State.dormantDelayStart (s : State) : DormantDelay :=
  if s.settings.dormantDelay = 0 then .stopped else .running (s.settings.dormantDelay * 60000)

/-- Activity at the Light Engine: dimmed is cleared and the auto-dim delay restarts, and in READING timed off is cleared
and the light-off delay restarts (R147, R148, R149). -/
def lightActivity (s : State) : State :=
  if s.power.state = .reading then
    { s with
      light.dimmed := false
      light.autoDim := .start s.autoDimMs
      light.timedOff := false
      light.lightOff := .start s.lightOffMs }
  else
    { s with
      light.dimmed := false
      light.autoDim := .start s.autoDimMs }

/-- A LIGHT press (R147). A press that turns the switch ON leaves forced dark as an alarm wake left it (log 51). -/
def lightPress (s : State) : State :=
  if s.light.switch then
    if s.light.timedOff || s.light.forcedDark then
      { s with light.timedOff := false, light.forcedDark := false, light.dimmed := false }
    else { s with light.switch := false, light.dimmed := false }
  else { s with light.switch := true, light.dimmed := false }

end Sys2Proof.Machine
end

