-- ==== Sys2Proof/Machine/TurnOps.lean ====
section
/-! DEFINITION. The Turn Engine's own work (chapter 5): the host key queue, lookups, starts, stops and ends of turns,
and the boost marks it raises (R104, R176). -/

namespace Sys2Proof.Machine

/-! ### The host key queue (R96) -/

/-- An entry joins the host key queue, or is lost when 8 are queued (R96). -/
def queueKey (event : KeyEvent) (reason : KeyReason) (s : State) : State :=
  if s.turn.keyQueue.length < 8 then
    post .keys { s with turn.keyQueue := s.turn.keyQueue ++ [⟨event, reason⟩] }
  else post .keysLost s

/-- A key event taken now (R94). -/
def State.stamp (s : State) (key : Key) : KeyEvent := ⟨key, s.keep.seconds, s.keep.milliseconds, s.keep.valid⟩

/-- The key of an owed count (R96). -/
def owedKey (owed : Int) : Key := if 0 < owed then .fwd else .back

/-- `n` owed turns join the host key queue. -/
def queueOwed (key : Key) (reason : KeyReason) : Nat → State → State
  | 0, s => s
  | n + 1, s => queueOwed key reason n (queueKey (s.stamp key) reason s)

/-- The owed turns are handed over with a reason, and the owed count becomes 0 (R109, R112). -/
def handOverOwed (reason : KeyReason) (s : State) : State :=
  { queueOwed (owedKey s.turn.owed) reason s.turn.owed.natAbs s with turn.owed := 0 }

/-! ### Lookups and the stock of pages -/

/-- The slot is READY and names the current title with its layout generation (R102, R107). -/
def State.turnable (s : State) (p : PageSlot) : Bool :=
  p.state == .ready && p.handle == s.turn.title && p.generation == (s.recordAt s.turn.title).generation

/-- The slot that a turn to a page finds (R102). -/
def State.lookupPage (s : State) (page : Nat) : Option (Fin 28) :=
  slotIds.find? fun i => s.turnable s.pm.slots[i] && s.pm.slots[i].page == page

/-- The pages-ahead count (R107). -/
def State.pagesAhead (s : State) : Nat :=
  (s.pm.slots.toList.filter fun p => s.turnable p && decide (s.turn.page < p.page)).length

/-- The Page Memory Controller reports the pages-ahead count after an event that changed it (R107); `before` is the
state before the event. -/
def reportAhead (before s : State) : State :=
  if s.turn.title ≠ 0 ∧ s.pagesAhead ≠ before.pagesAhead ∧ s.settings.refillMark ≤ s.pagesAhead then
    { s with turn.refillArmed := true }
  else s

/-- The test at a successful turn completion (R107). -/
def refillTest (s : State) : State :=
  if s.pagesAhead < s.settings.refillMark then
    if s.turn.refillArmed then post .refill { s with turn.refillArmed := false } else s
  else { s with turn.refillArmed := true }

/-! ### Boost marks (R74, R176) -/

/-- The turn boost is raised; a raise in ACTIVE changes nothing. -/
def raiseTurnBoost (s : State) : State :=
  if s.power.state = .reading then { s with power.turnBoost := true } else s

/-- The turn boost ends. -/
def endTurnBoost (s : State) : State := { s with power.turnBoost := false }

/-- The download boost is raised; a raise in ACTIVE changes nothing. -/
def raiseDownloadBoost (s : State) : State :=
  if s.power.state = .reading then { s with power.downloadBoost := true } else s

/-! ### Turns -/

/-- The engine is autonomous: it has a current title and pass-through is off (section 5.3). -/
def TurnState.autonomous : TurnState → Bool
  | .ready | .turning | .stopped => true
  | .off | .pass => false

/-- A stop by EXPIRED or RETIRING is kept by the failures of a turn (R104, R108). -/
def keepsReason : Option StopReason → Bool
  | some .expired | some .retiring => true
  | _ => false

/-- The press behind a turn joins the host key queue with a reason: the key event that started it, or an owed turn's key
with the time of this event (R96). GO TO PAGE has none. -/
def queuePress (origin : TurnOrigin) (reason : KeyReason) (s : State) : State :=
  match origin with
  | .key event => queueKey event reason s
  | .owed key => queueKey (s.stamp key) reason s
  | .goTo _ => s

/-- A turn toward a page starts, or stops at its lookup (R103). -/
def startTurn (page : Nat) (direction : TurnDirection) (origin : TurnOrigin) (s : State) : State :=
  match s.lookupPage page with
  | some i =>
    if s.pm.slots[i].fence then
      post .turnStopped (queuePress origin .fenced { s with turn.state := .stopped, turn.reason := some .fence })
    else { s with turn.state := .turning, turn.flight := some ⟨i, page, direction, origin, false, false, false⟩ }
  | none => post .turnStopped (queuePress origin .missed { s with turn.state := .stopped, turn.reason := some .miss })

/-- A FWD or BACK event reaches the Turn Engine (R98, R103, R105). -/
def turnKey (event : KeyEvent) (s : State) : State :=
  let forward := event.key == .fwd
  match s.turn.state with
  | .off | .pass => queueKey event .passed s
  | .stopped => queueKey event .stopped s
  | .turning =>
    if forward then { s with turn.owed := min 3 (s.turn.owed + 1) }
    else { s with turn.owed := max (-3) (s.turn.owed - 1) }
  | .ready =>
    if forward then
      if s.turn.page < 65535 then startTurn (s.turn.page + 1) .fwd (.key event) s else s
    else if 0 < s.turn.page then startTurn (s.turn.page - 1) .back (.key event) s
    else s

/-- The reply of a GO TO PAGE whose turn ends (R113). -/
def answerOrigin (flight : TurnFlight) (result : Result) (payload : List Byte) (s : State) : State :=
  match flight.origin with
  | .goTo request => answer request result payload s
  | .key _ | .owed _ => s

/-- A give-up of the slot of a turn follows its show while the show is still to be taken (R79; log 21). -/
def TurnFlight.givenUp (f : TurnFlight) : TurnFlight := { f with giveUp := f.giveUp || !f.shown }

/-- The engine sends the give-up of the slot of the last show that was made, and behind a show that is still to be taken
that of its slot (R79, R88; log 21). -/
def sendGiveUp (s : State) : State :=
  { s with
    turn.giveUps := s.turn.giveUps ++ s.turn.lastShow.toList
    turn.lastShow := none
    turn.flight := s.turn.flight.map TurnFlight.givenUp }

/-- The engine stops with MISS at a failed turn, unless it already stands stopped by EXPIRED or RETIRING; it posts
TURN_STOPPED and hands over its owed turns. An engine in PASS goes on (R104, R108, R109). -/
def stopAtFailure (s : State) : State :=
  if s.turn.state.autonomous then
    let t := if s.turn.state = .stopped ∧ keepsReason s.turn.reason = true then s
      else { s with turn.state := .stopped, turn.reason := some .miss }
    handOverOwed .stopped (post .turnStopped t)
  else s

/-- The update of the turn in flight has failed (R108). -/
def turnFailed (result : Result) (s : State) : State :=
  match s.turn.flight with
  | none => s
  | some f =>
    answerOrigin f result []
      (endTurnBoost (stopAtFailure (sendGiveUp { s with turn.flight := none })))

/-- The show of the turn in flight found its slot no longer READY (R104, R113); the press of an owed turn is handed over
with the time of this event (R96). -/
def showFailed (s : State) : State :=
  match s.turn.flight with
  | none => s
  | some f =>
    let t := { s with turn.flight := none }
    match f.origin with
    | .key _ | .owed _ =>
      let u := if t.turn.state.autonomous then
          if t.turn.state = .stopped ∧ keepsReason t.turn.reason = true then t
          else { t with turn.state := .stopped, turn.reason := some .miss }
        else t
      let v := queuePress f.origin .missed u
      endTurnBoost (if v.turn.state.autonomous then handOverOwed .stopped (post .turnStopped v) else v)
    | .goTo request =>
      let u := if t.turn.state.autonomous ∧ t.turn.state ≠ .stopped then
          { t with turn.state := .stopped, turn.reason := some .miss }
        else t
      let v := if u.turn.state.autonomous then handOverOwed .stopped (post .turnStopped u) else u
      answer request .sourceGone [] (endTurnBoost v)

/-- One owed turn is taken at a successful completion (R106, R109). A stop at its lookup hands over its own press first
and then the rest. -/
def takeOwed (s : State) : State :=
  let forward := decide (0 < s.turn.owed)
  let target : Int := if forward then s.turn.page + 1 else s.turn.page - 1
  if target < 0 ∨ 65535 < target then
    endTurnBoost { s with turn.owed := 0, turn.state := .ready }
  else
    let owed := if forward then s.turn.owed - 1 else s.turn.owed + 1
    let t := startTurn target.toNat (if forward then .fwd else .back) (.owed (owedKey s.turn.owed))
      { s with turn.owed := owed, turn.state := .ready }
    if t.turn.flight.isSome then t else endTurnBoost (handOverOwed .stopped t)

/-- The READY slots that fall behind the current page (R106). -/
def State.trailingSlots (s : State) : List (Fin 28) :=
  slotIds.filter fun i =>
    s.pm.slots[i].state == .ready && s.pm.slots[i].handle == s.turn.title
      && decide (s.pm.slots[i].page + s.settings.behindKeep < s.turn.page)

/-- The update of the turn in flight has completed with DONE (R106). -/
def turnSucceeded (s : State) : State :=
  match s.turn.flight with
  | none => s
  | some f =>
    let t1 := { s with
      turn.page := f.page
      turn.flight := none
      turn.positions := s.turn.positions ++ [⟨s.turn.title, f.page⟩] }
    let t2 := if t1.trailingSlots = [] then t1 else { t1 with turn.trailing := t1.turn.trailing ++ [t1.trailingSlots] }
    let t3 := answerOrigin f .ok (item2 f.page) (refillTest t2)
    match t3.turn.state with
    | .turning => if t3.turn.owed = 0 then endTurnBoost { t3 with turn.state := .ready } else takeOwed t3
    | _ => endTurnBoost t3

/-- The TURN update has ended with a result (R106, R108). -/
def turnEnded (result : Result) (s : State) : State :=
  if result = .done then turnSucceeded s else turnFailed result s

/-- The current title enters EXPIRED or RETIRING (R110). -/
def titleStopped (h : Nat) (reason : StopReason) (s : State) : State :=
  if s.turn.title = h then
    match s.turn.state with
    | .ready => post .turnStopped { s with turn.state := .stopped, turn.reason := some reason }
    | .turning =>
      handOverOwed .stopped (post .turnStopped { s with turn.state := .stopped, turn.reason := some reason })
    | .stopped =>
      post .turnStopped
        (if s.turn.reason = some .expired ∧ reason = .expired then s else { s with turn.reason := some reason })
    | .off | .pass => s
  else s

end Sys2Proof.Machine
end

