-- ==== Sys2Proof/Machine/FlashOps.lean ====
section
/-! DEFINITION. Content flash: the block map (R30 to R33), what the attached device does (R37, R52), and the Write-back
Engine (R40 to R48). -/

namespace Sys2Proof.Machine

/-! ### The block map -/

/-- Sets the condition of `count` blocks, the first of them `skip` places into the list. -/
def fillRun (c : BlockCondition) : Nat → Nat → List BlockCondition → List BlockCondition
  | _, _, [] => []
  | 0, 0, l => l
  | 0, n + 1, _ :: l => c :: fillRun c 0 n l
  | k + 1, n, x :: l => x :: fillRun c k n l

/-- Sets the condition of an extent's blocks. -/
def fillExtent (c : BlockCondition) (e : Extent) (l : List BlockCondition) : List BlockCondition :=
  fillRun c (e.start - 8) e.count l

/-- Sets the condition of the blocks of several extents. -/
def fillExtents (c : BlockCondition) (es : List Extent) (l : List BlockCondition) : List BlockCondition :=
  es.foldl (fun m e => fillExtent c e m) l

/-- The free runs in ascending block order (R31); `b` is the block of the list's head. -/
def freeRuns : Nat → List BlockCondition → List Extent
  | _, [] => []
  | b, .free :: l =>
    match freeRuns (b + 1) l with
    | [] => [⟨b, 1⟩]
    | r :: rest => if r.start = b + 1 then ⟨b, r.count + 1⟩ :: rest else ⟨b, 1⟩ :: r :: rest
  | b, _ :: l => freeRuns (b + 1) l

/-- The walk of an allocation over the free runs (R31). -/
def gatherRuns : Nat → List Extent → List Extent
  | _, [] => []
  | k, r :: rest => if k ≤ r.count then [⟨r.start, k⟩] else r :: gatherRuns (k - r.count) rest

/-- Number of FREE blocks. -/
def freeBlocks (l : List BlockCondition) : Nat := (l.filter fun c => c == .free).length

/-- Title blocks that a declared length needs (R29). -/
def blocksFor (length : Nat) : Nat := (length + 65535) / 65536

/-- Allocation of `k` blocks: the extents, or the refusal (R31). -/
def allocate (k : Nat) (l : List BlockCondition) : Except Result (List Extent) :=
  if freeBlocks l < k then .error .noSpace
  else
    let es := gatherRuns k (freeRuns 8 l)
    if 16 < es.length then .error .fragmented else .ok es

/-- The allocated blocks become OWNED by a handle (R31). -/
def ownExtents (h : Nat) (es : List Extent) (s : State) : State :=
  { s with blocks.conditions := fillExtents (.owned h) es s.blocks.conditions }

/-- The extents of a retired record enter the release list (R32). -/
def releaseExtents (sector : Nat) (es : List Extent) (s : State) : State :=
  { s with
    blocks.conditions := fillExtents (.releasing sector) es s.blocks.conditions
    blocks.releaseList := s.blocks.releaseList ++ es.map fun e => ⟨e, sector, none⟩ }

/-- The write covers the release entry (R33). -/
def ReleaseEntry.covered (number : Nat) (e : ReleaseEntry) : Bool := e.cover == some number

/-- The release entries that a completed write covers leave the list and their blocks become FREE (R33, R44). -/
def freeCovered (number : Nat) (s : State) : State :=
  { s with
    blocks.conditions :=
      fillExtents .free ((s.blocks.releaseList.filter (ReleaseEntry.covered number)).map (·.extent))
        s.blocks.conditions
    blocks.releaseList := s.blocks.releaseList.filter fun e => !e.covered number }

/-- The entries covered by a failed write lose their cover mark (R33, R45). -/
def uncover (number : Nat) (s : State) : State :=
  { s with
    blocks.releaseList :=
      s.blocks.releaseList.map fun e => if e.covered number then { e with cover := none } else e }

/-- A snapshot covers the entries of its sector that have no mark (R33, R43). -/
def coverSector (sector number : Nat) (s : State) : State :=
  { s with
    blocks.releaseList := s.blocks.releaseList.map fun e =>
      if e.sector = sector ∧ e.cover = none then { e with cover := some number } else e }

/-- The block at a position of the concatenated extents (section 1.1). -/
def blockAt : List Extent → Nat → Option Nat
  | [], _ => none
  | e :: rest, n => if n < e.count then some (e.start + n) else blockAt rest (n - e.count)

/-- Blocks that the extents hold. -/
def extentBlocks (es : List Extent) : Nat := (es.map (·.count)).sum

/-- The flash address of a title's byte offset (section 1.1); block 0 stands for an offset outside the extents, which
no rule asks for. -/
def titleAddress (es : List Extent) (offset : Nat) : Nat :=
  (blockAt es (offset / 65536)).getD 0 * 65536 + offset % 65536

/-! ### The attached device (R37, R52, R66) -/

/-- The byte at an address of the title blocks; a free value where a cut-off or failed operation left the unit
undefined (log 15). -/
def FlashDevice.byteAt (d : FlashDevice) (a : Nat) : Byte :=
  match d.unknown.lookup (a / 16384) with
  | some n => Config.undefinedByte n a
  | none => Memory.read d.title a

/-- The bytes of a read. -/
def FlashDevice.bytes (d : FlashDevice) (a n : Nat) : List Byte := (List.range n).map fun i => d.byteAt (a + i)

/-- Takes units of 16 KiB out of the undefined ones. -/
def defineUnits (units : List Nat) (s : State) : State :=
  { s with flash.unknown := s.flash.unknown.filter fun u => !units.contains u.1 }

/-- Marks units of 16 KiB as undefined under a new free value. -/
def undefineUnits (units : List Nat) (s : State) : State :=
  { s with
    flash.unknown := (s.flash.unknown.filter fun u => !units.contains u.1) ++ units.map fun u => (u, s.freeCount)
    freeCount := s.freeCount + 1 }

/-- The four 16 KiB units of a block. -/
def blockUnits (block : Nat) : List Nat := [4 * block, 4 * block + 1, 4 * block + 2, 4 * block + 3]

/-- A block has been erased. -/
def eraseBlock (block : Nat) (s : State) : State :=
  defineUnits (blockUnits block) { s with flash.title := Memory.wipe s.flash.title (block * 65536) 65536 }

/-- A segment has been programmed. -/
def programSegment (address : Nat) (payload : List Byte) (s : State) : State :=
  defineUnits [address / 16384] { s with flash.title := Memory.store s.flash.title address payload }

/-- What a slot holds by a choice between its old and its new content (log 13). -/
def remainsOf (r : Remains) (old new : SlotImage) : SlotImage :=
  match r with
  | .unreadable => .unreadable
  | .old => old
  | .new => new

/-- Writes the slots of a sector, each by a choice. -/
def writeSlots (choice : Nat → Remains) (sector : Nat) (snapshot : List Persisted) (s : State) : State :=
  { s with
    flash.slots := (snapshot.zipIdx).foldl
      (fun v p =>
        let i := 16 * sector + p.2
        if g : i < 1024 then v.set i (remainsOf (choice (i + 1)) v[i] (.whole p.1)) g else v)
      s.flash.slots }

/-- The sector holds its snapshot. -/
def storeSector (sector : Nat) (snapshot : List Persisted) (s : State) : State :=
  writeSlots (fun _ => .new) sector snapshot s

/-- A failed sector write: what each slot holds is a free value (R38, R45; log 13). -/
def spoilSector (sector : Nat) (snapshot : List Persisted) (s : State) : State :=
  let t := writeSlots (Config.slotRemains s.freeCount) sector snapshot s
  { t with freeCount := t.freeCount + 1 }

/-- A cut-off sector write leaves the sector unreadable: one of its slots at least, and which one is a free value as well
(R52; log 13). -/
def cutSector (sector : Nat) (snapshot : List Persisted) (s : State) : State :=
  let n := s.freeCount
  let t := writeSlots
    (fun h => if (h - 1) % 16 = Config.lostSlot n % 16 then .unreadable else Config.slotRemains n h) sector snapshot s
  { t with freeCount := n + 1 }

/-- What an image area holds after a failed write, a free value (R187, R189; log 14). -/
def imageAfter (r : Remains) (old new : List Byte) : List Byte :=
  match r with
  | .unreadable => []
  | .old => old
  | .new => new

/-- The operation in progress is cut off (R52): of an erase or a program the whole title block is undefined. A cut-off
settings or waveform write leaves an image whose check fails. -/
def cutOff (s : State) : State :=
  match s.running with
  | some (.sectorWrite sector _ snapshot) => cutSector sector snapshot s
  | some (.erase _ _ _ block) => undefineUnits (blockUnits block) s
  | some (.program _ _ _ address _) => undefineUnits (blockUnits (address / 65536)) s
  | some (.settingsWrite _ _) => { s with flash.settings := [] }
  | some (.waveformWrite _ _) => { s with flash.waveform := [] }
  | some (.titleRead _ _ _) | some (.verifyRead _ _ _) | some (.bringupRead _) | none => s

/-! ### Write-back (section 2.6) -/

/-- A flush has ended, at its owner (R48). -/
def flushEnded (owner : FlushOwner) (how : FlushEnd) (s : State) : State :=
  match owner with
  | .host request => answer request (if how = .completed then .ok else .halted) [] s
  | .dormantEntry => { s with power.entryFlush := some how }
  | .shelfEntry => { s with power.shelfFlush := some how }
  | .battery => s

/-- The waiting sector write moves to class 1 (R36, R47). -/
def raiseSectorWrite (s : State) : State :=
  { s with
    port.waiting := s.port.waiting.map fun op =>
      match op.job with
      | .sectorWrite _ _ _ => { op with cls := 1 }
      | _ => op }

/-- The awaited set of a flush demanded now (R47). -/
def State.awaitedNow (s : State) : List Awaited :=
  s.wb.queue.map (fun e => .entry e.sector) ++
    match s.wb.inFlight with
    | none => []
    | some w => [.write w.number]

/-- A flush is demanded (R46, R47). -/
def demandFlush (owner : FlushOwner) (s : State) : State :=
  if s.wb.halted then flushEnded owner .halted s
  else if s.awaitedNow = [] then flushEnded owner .completed s
  else raiseSectorWrite { s with wb.flushes := s.wb.flushes ++ [⟨owner, s.awaitedNow⟩] }

/-- Every outstanding flush ends (R46). -/
def endFlushes (how : FlushEnd) (flushes : List Flush) (s : State) : State :=
  flushes.foldl (fun t f => flushEnded f.owner how t) s

/-- An unload of the head entry begins at this event (R42). -/
def State.unloadDue (s : State) : Bool :=
  match s.wb.queue with
  | [] => false
  | head :: _ =>
    !s.wb.halted && s.wb.inFlight.isNone && s.power.state != .bringup
      && (decide (s.settings.unloadThreshold ≤ s.wb.queue.length)
        || decide (head.created + s.settings.writeBackDelay * 1000 ≤ s.wb.elapsed)
        || !s.wb.flushes.isEmpty)

/-- The 16 records of a sector lose their dirty flags (R43). -/
def cleanSector (sector : Nat) (s : State) : State :=
  (sectorHandles sector).foldl (fun t h => setRecord h { t.recordAt h with dirty := false } t) s

/-- The snapshot of a sector (R43). -/
def State.snapshot (s : State) (sector : Nat) : List Persisted :=
  (sectorHandles sector).map fun h => (s.recordAt h).toPersisted

/-- An awaited entry becomes the sector write it is unloaded into (R47). -/
def Awaited.unloaded (sector number : Nat) (a : Awaited) : Awaited :=
  if a = .entry sector then .write number else a

/-- A failed write becomes the entry that returns to the queue (R45, R47). -/
def Awaited.returned (sector number : Nat) (a : Awaited) : Awaited :=
  if a = .write number then .entry sector else a

/-- The unload of the head entry (R43). -/
def unload (s : State) : State :=
  match s.wb.queue with
  | [] => s
  | head :: rest =>
    let n := s.wb.nextWrite
    let t := coverSector head.sector n (cleanSector head.sector s)
    placeOp (if s.wb.flushes.isEmpty then 4 else 1) false (.sectorWrite head.sector n (s.snapshot head.sector))
      { t with
        wb.queue := rest
        wb.inFlight := some ⟨head.sector, head.created, n⟩
        wb.nextWrite := n + 1
        wb.flushes := s.wb.flushes.map fun f =>
          { f with awaited := f.awaited.map (Awaited.unloaded head.sector n) } }

/-- A flush without a member that has been written; it is complete when none is left. -/
def Flush.written (number : Nat) (f : Flush) : Flush := { f with awaited := f.awaited.filter fun a => a != .write number }

/-- The sector write in flight has ended with success (R44). -/
def writeSucceeded (w : InFlight) (s : State) : State :=
  let flushes := s.wb.flushes.map (Flush.written w.number)
  let t := freeCovered w.number
    { s with wb.inFlight := none, wb.flushes := flushes.filter fun f => !f.awaited.isEmpty }
  endFlushes .completed (flushes.filter fun f => f.awaited.isEmpty) t

/-- The records of a failed snapshot are dirty again (R5, R45). -/
def dirtySector (sector : Nat) (s : State) : State :=
  (sectorHandles sector).foldl (fun t h => setRecord h { t.recordAt h with dirty := true } t) s

/-- The sector write in flight has ended with failure (R45, R46). -/
def writeFailed (w : InFlight) (s : State) : State :=
  let severeHeld := s.faults.holdsSevere
  let t := uncover w.number (dirtySector w.sector (reportFault .flashWrite (some w.sector) s))
  let u := { t with
    wb.inFlight := none
    wb.queue := ⟨w.sector, w.created⟩ :: t.wb.queue.filter (fun e => decide (e.sector ≠ w.sector))
    wb.flushes := t.wb.flushes.map fun f =>
      { f with awaited := (f.awaited.map (Awaited.returned w.sector w.number)).eraseDups } }
  if severeHeld then endFlushes .halted u.wb.flushes { u with wb.halted := true, wb.flushes := [] } else u

/-! ### Retirement completion (R24) -/

/-- No hold, no busy transfer slot and no page slot names the record (R24). -/
def State.unheld (s : State) (h : Nat) : Bool :=
  (s.recordAt h).holds == 0
    && s.dl.slots.toList.all (fun t => t.state == .free || t.handle != h)
    && s.pm.slots.toList.all (fun p => p.state == .free || p.handle != h)

/-- Retirement completes: the record becomes EMPTY, its extents enter the release list, TITLE_RETIRED is posted
(R24). -/
def completeRetirement (h : Nat) (s : State) : State :=
  let es := (s.recordAt h).extents
  post .titleRetired (releaseExtents (sectorOf h) es (changeRecord h (fun _ => Persisted.blank) s))

/-- The test for retirement completion (R24). -/
def testRetirement (h : Nat) (s : State) : State :=
  if (s.recordAt h).state = .retiring ∧ s.unheld h = true then completeRetirement h s else s

end Sys2Proof.Machine
end

