-- ==== Sys2Proof/Machine/PageOps.lean ====
section
/-! DEFINITION. The panel's rectangles, its update queue and admission (chapter 6), and the frames and slots of page
memory (chapter 4). -/

namespace Sys2Proof.Machine

/-! ### Rectangles and cells -/

/-- The rectangles share at least one pixel (R124). -/
def Rect.overlaps (a b : Rect) : Bool :=
  decide (a.x < b.x + b.w) && decide (b.x < a.x + a.w) && decide (a.y < b.y + b.h) && decide (b.y < a.y + a.h)

/-- The rectangles touch along a segment of non-zero length without overlapping (R121). -/
def Rect.sharesEdge (a b : Rect) : Bool :=
  ((a.x + a.w == b.x || b.x + b.w == a.x) && decide (a.y < b.y + b.h) && decide (b.y < a.y + a.h))
    || ((a.y + a.h == b.y || b.y + b.h == a.y) && decide (a.x < b.x + b.w) && decide (b.x < a.x + a.w))

/-- The bounding rectangle of two (R121). -/
def Rect.bounding (a b : Rect) : Rect :=
  let x := min a.x b.x
  let y := min a.y b.y
  ⟨x, y, max (a.x + a.w) (b.x + b.w) - x, max (a.y + a.h) (b.y + b.h) - y⟩

/-- The alignment of update and write rectangles (R82, R117). -/
def Rect.aligned (r : Rect) : Bool :=
  r.x % 8 == 0 && r.w % 8 == 0 && r.y % 4 == 0 && r.h % 4 == 0 && decide (8 ≤ r.w) && decide (4 ≤ r.h)

/-- The rectangle lies inside the panel. -/
def Rect.inside (r : Rect) : Bool := decide (r.x + r.w ≤ 1680) && decide (r.y + r.h ≤ 1248)

/-- The whole panel. -/
def Rect.panel : Rect := ⟨0, 0, 1680, 1248⟩

/-- The area of ghost cell number `n`, in row order (R130). -/
def cellRect (n : Nat) : Rect := ⟨112 * (n % 15), 96 * (n / 15), 112, 96⟩

/-- The ghost weight of a partial mode (R118). -/
def Mode.weight : Mode → Nat
  | .clear => 0
  | .grey16 => 1
  | .mono => 1
  | .sketch => 2

/-- The budget claim of a mode (R118). -/
def Mode.claim : Mode → Nat
  | .clear => 60
  | .grey16 => 40
  | .mono => 30
  | .sketch => 20

/-- Some touched cell's count plus the mode's weight exceeds the ghost limit (R126). -/
def State.wouldGhost (s : State) (r : Rect) (m : Mode) : Bool :=
  s.panel.ghost.zipIdx.any fun c => r.overlaps (cellRect c.2) && decide (s.settings.ghostLimit < c.1 + m.weight)

/-- The ghost table after a completed drive (R131). -/
def driveGhost (limit : Nat) (r : Rect) (m : Mode) (ghost : List Nat) : List Nat :=
  ghost.zipIdx.map fun c =>
    if r.overlaps (cellRect c.2) then (if m = .clear then 0 else min limit (c.1 + m.weight)) else c.1

/-- Frame 0 becomes unknown and every ghost count is set to the limit (R130, R136). -/
def loseFrameZero (s : State) : State :=
  { s with panel.zeroKnown := false, panel.ghost := s.panel.ghost.map fun _ => s.settings.ghostLimit }

/-- The temperature band of a sample in degrees (R119). -/
def temperatureBand (t : Int) : Nat :=
  if t < 5 then 0 else if t < 10 then 1 else if t < 15 then 2 else if t < 20 then 3 else if t < 25 then 4
  else if t < 30 then 5 else if t < 40 then 6 else 7

/-! ### The update queue (section 6.2) -/

/-- Some lane is busy. -/
def State.anyBusy (s : State) : Bool := s.panel.lanes.toList.any fun l => l.state != .idle

/-- Number of busy lanes. -/
def State.busyLanes (s : State) : Nat := (s.panel.lanes.toList.filter fun l => l.state != .idle).length

/-- The entry in admission, if there is one. -/
def State.inAdmission (s : State) : Option UpdateEntry := s.panel.queue.find? fun e => e.admission.isSome

/-- Admission order: the TURN entry, then the HOST entries in creation order (R124). -/
def admissionOrder (queue : List UpdateEntry) : List UpdateEntry :=
  queue.filter (fun e => e.origin == .turn) ++ queue.filter (fun e => e.origin == .host)

/-- No entry ahead in admission order overlaps. -/
def clearAhead (ahead : List UpdateEntry) (r : Rect) : Bool := ahead.all fun e => !e.rect.overlaps r

/-- The first entry that no entry ahead of it and no busy lane overlaps; `ahead` are the entries already walked. -/
def firstFree (lanes : List Lane) : List UpdateEntry → List UpdateEntry → Option UpdateEntry
  | _, [] => none
  | ahead, e :: rest =>
    if clearAhead ahead e.rect && lanes.all (fun l => l.state == .idle || !l.rect.overlaps e.rect) then some e
    else firstFree lanes (ahead ++ [e]) rest

/-- The entry that a choice takes (R124, R125). -/
def State.nextAdmissible (s : State) : Option UpdateEntry :=
  if s.awake && !s.panel.halted && s.inAdmission.isNone
      && s.panel.lanes.toList.any (fun l => l.state == .idle)
      && (s.power.clock == .full || !s.anyBusy) then
    firstFree s.panel.lanes.toList [] (admissionOrder s.panel.queue)
  else none

/-- What a choice decides for an entry (R126). -/
def State.admissionFor (s : State) (e : UpdateEntry) : Admission :=
  if !s.panel.zeroKnown then ⟨.clear, e.mode != .clear, true⟩
  else if e.mode = .clear then ⟨.clear, false, false⟩
  else if !e.noPromote && s.wouldGhost e.rect e.mode then ⟨.clear, true, false⟩
  else ⟨e.mode, false, false⟩

/-- Marks the entry of a creation order. -/
def markAdmission (order : Nat) (a : Option Admission) (queue : List UpdateEntry) : List UpdateEntry :=
  queue.map fun e => if e.order = order then { e with admission := a } else e

/-- The choice of an entry begins its admission (R126). -/
def beginAdmission (e : UpdateEntry) (s : State) : State :=
  let a := s.admissionFor e
  placeClaim .admission a.mode.claim
    { s with panel.queue := markAdmission e.order (some a) s.panel.queue }

/-- The entry in admission becomes an ordinary queued entry again (R127). -/
def withdrawAdmission (s : State) : State :=
  withdrawClaim .admission { s with panel.queue := s.panel.queue.map fun e => { e with admission := none } }

/-- Withdraws the entry in admission where a queued entry ahead of it overlaps it (R127). -/
def withdrawOvertaken (s : State) : State :=
  match s.inAdmission with
  | none => s
  | some e =>
    let ahead := (admissionOrder s.panel.queue).takeWhile fun a => a.order != e.order
    if clearAhead ahead e.rect then s else withdrawAdmission s

/-- A queued entry that has left the queue is answered, at its requesters or at the Turn Engine (R122). -/
def endEntry (result : Result) (e : UpdateEntry) (s : State) : State :=
  let t := answerAll e.requesters result [] s
  if e.origin = .turn then turnEnded result t else t

/-- Queued entries are removed without driving, in creation order (R122). -/
def removeEntries (which : UpdateEntry → Bool) (result : Result) (s : State) : State :=
  let gone := s.panel.queue.filter which
  let t := { s with panel.queue := s.panel.queue.filter fun e => !which e }
  let u := if gone.any (fun e => e.admission.isSome) then withdrawClaim .admission t else t
  gone.foldl (fun v e => endEntry result e v) u

/-- The Turn Engine places its TURN update (R104, R120, R127). -/
def placeTurnUpdate (frame : Nat) (mode : Mode) (s : State) : State :=
  if s.panel.halted then turnFailed .panelFault s
  else
    let t : State :=
      match s.inAdmission with
      | some e => if e.origin = UpdateOrigin.host then withdrawAdmission s else s
      | none => s
    { t with
      panel.queue := t.panel.queue ++
        [⟨frame, Rect.panel, mode, false, .turn, t.panel.nextOrder, [], none⟩]
      panel.nextOrder := t.panel.nextOrder + 1 }

/-! ### Frames (R77, R78) -/

/-- First page memory byte of a frame. -/
def frameBase (frame : Nat) : Nat := frame * 1048576

/-- The rows of a rectangle in a frame: first byte and length. -/
def rowSpans (base : Nat) (r : Rect) : List (Nat × Nat) :=
  (List.range r.h).map fun j => (base + (r.y + j) * 840 + r.x / 2, r.w / 2)

/-- How many bytes of word `k` the spans cover. -/
def wordCover (spans : List (Nat × Nat)) (k : Nat) : Nat :=
  (spans.map fun p => min (8 * k + 8) (p.1 + p.2) - max (8 * k) p.1).sum

/-- A disagreement arises in a word; two bits wrong outlast one. -/
def insertFlip (f : WordFlip) : List WordFlip → List WordFlip
  | [] => [f]
  | g :: rest =>
    if f.word < g.word then f :: g :: rest
    else if f.word = g.word then (if f.error = .double then f else g) :: rest
    else g :: insertFlip f rest

/-- The disagreements that have arisen in the 4,194,304 words of page memory (log 17). -/
def addFlips (flips : List WordFlip) (s : State) : State :=
  { s with
    pm.errors := (flips.filter fun f => decide (f.word < 4194304)).foldl (fun l f => insertFlip f l) s.pm.errors }

/-- The listed bytes of a rectangle of a frame, by offset in the frame. -/
def readRect (frame : Nat) (r : Rect) (cells : List Host.Cell) : List Host.Cell :=
  (rowSpans (frameBase frame) r).flatMap fun p => Memory.shift (frameBase frame) 0 (Memory.window cells p.1 p.2)

/-- Writes rows of cells, given by offset in the frame, into a frame. -/
def writeRows (base : Nat) (content : List Host.Cell) (spans : List (Nat × Nat)) (cells : List Host.Cell) :
    List Host.Cell :=
  spans.foldl (fun m p => Memory.splice m p.1 p.2 (Memory.shift 0 base (Memory.window content (p.1 - base) p.2))) cells

/-- The words that a write half covers and that disagree with their code (R78). -/
def State.mergeErrors (s : State) (spans : List (Nat × Nat)) (e : WordError) : List WordFlip :=
  s.pm.errors.filter fun f => f.error == e && decide (0 < wordCover spans f.word) && decide (wordCover spans f.word < 8)

/-- A merge that cannot be recovered sets the other half of the word white (R93). -/
def whitenWords (words : List WordFlip) (cells : List Host.Cell) : List Host.Cell :=
  words.foldl (fun m f => Memory.wipe m (8 * f.word) 8) cells

/-- The pixels of a rectangle are written and the words they reach hold correct codes (R78, R93). -/
def writeRect (frame : Nat) (r : Rect) (content : List Host.Cell) (s : State) : State :=
  let spans := rowSpans (frameBase frame) r
  { s with
    pm.cells := writeRows (frameBase frame) content spans (whitenWords (s.mergeErrors spans .double) s.pm.cells)
    pm.errors := s.pm.errors.filter fun f => wordCover spans f.word == 0 }

/-- The cells of a WRITE PIXELS payload, row by row, by offset in the frame (R77). -/
def pixelCells (r : Rect) (pixels : List Byte) : List Host.Cell :=
  (rowSpans 0 r).zipIdx.flatMap fun p =>
    Memory.cellsOf p.1.1 ((pixels.drop (p.2 * (r.w / 2))).take p.1.2)

/-- Reports corrected words while "report corrected" is on (R90). -/
def reportCorrected (frame : Nat) (s : State) : State :=
  if s.settings.reportCorrected then reportFault .pageMemoryCorrected (some frame) s else s

/-! ### Page slots (R86, R88) -/

/-- The slot of a number that a request carries. -/
def slotNumber (n : Nat) : Option (Fin 28) := if g : n < 28 then some ⟨n, g⟩ else none

/-- The frame of a page slot. -/
def slotFrame (i : Fin 28) : Nat := i.val + 4

/-- The slot of a frame, if it is a slot frame. -/
def frameSlot (frame : Nat) : Option (Fin 28) := slotIds.find? fun i => slotFrame i == frame

/-- A slot that the turn in flight has asked to show is freed before the show is taken (R104). -/
def TurnFlight.loses (i : Fin 28) (f : TurnFlight) : TurnFlight := { f with lost := f.lost || (f.slot == i && !f.shown) }

/-- The freeing of a slot (R86); `own`: it is the Turn Engine's own give-up of its SHOWN slot. -/
def freeSlotNow (own : Bool) (i : Fin 28) (s : State) : State :=
  let old : PageSlot := s.pm.slots[i]
  let blanked := setSlot i PageSlot.blank { s with turn.flight := s.turn.flight.map (TurnFlight.loses i) }
  let t := removeEntries (fun e => e.source == slotFrame i) .sourceGone blanked
  let u := if old.state = .shown ∧ own = false ∧ t.turn.lastShow = some i then { t with turn.lastShow := none } else t
  testRetirement old.handle u

/-- Several slots are freed, in order. -/
def freeSlots (is : List (Fin 28)) (s : State) : State := is.foldl (fun t i => freeSlotNow false i t) s

/-- A SHOWN slot is given up (R88). -/
def giveUpSlot (i : Fin 28) (s : State) : State :=
  let p : PageSlot := s.pm.slots[i]
  if p.state = .shown then
    let r := s.recordAt p.handle
    if r.state = .ready ∧ r.generation = p.generation then setSlot i { p with state := .ready } s
    else freeSlotNow true i s
  else s

/-- The slots that an invalidation frees: FILLING or READY, naming the handle, by generation (R87). -/
def State.invalidated (s : State) (h : Nat) (stale : Nat → Bool) : List (Fin 28) :=
  slotIds.filter fun i =>
    (s.pm.slots[i].state == .filling || s.pm.slots[i].state == .ready)
      && s.pm.slots[i].handle == h && stale s.pm.slots[i].generation

/-! ### Pixel writes (R82, R83, R93) -/

/-- The outcome of a WRITE PIXELS that writes now: its faults and its reply (R82, R90, R93). -/
def writePixelsNow (request frame : Nat) (r : Rect) (pixels : List Byte) (s : State) : State :=
  let spans := rowSpans (frameBase frame) r
  let corrected := !(s.mergeErrors spans .single).isEmpty
  let lost := !(s.mergeErrors spans .double).isEmpty
  let t := writeRect frame r (pixelCells r pixels) s
  let u := if lost && decide (4 ≤ frame) then reportFault .pageMemory (some frame) t else t
  let v := if corrected then reportCorrected frame u else u
  answer request (if lost then .dataError else .ok) [] v

/-- A lane is LOADING from the frame. -/
def State.loadingFrom (s : State) (frame : Nat) : Bool :=
  s.panel.lanes.toList.any fun l => l.state == .loading && l.source == frame

/-- The identity of a slot. -/
def PageSlot.identity (p : PageSlot) : SlotIdentity := ⟨p.handle, p.page, p.generation⟩

/-- A held write meets its target again (R83). -/
def State.heldTargetStands (s : State) (w : HeldWrite) : Bool :=
  match frameSlot w.frame with
  | none => true
  | some i => s.pm.slots[i].state == .filling && w.identity == some s.pm.slots[i].identity

/-- The held writes of a frame are applied in order (R83). -/
def applyHeld (frame : Nat) (s : State) : State :=
  if s.loadingFrom frame then s
  else
    let mine := s.pm.held.filter fun w => w.frame == frame
    let t := { s with pm.held := s.pm.held.filter fun w => w.frame != frame }
    mine.foldl
      (fun u w =>
        if u.heldTargetStands w then writePixelsNow w.request w.frame w.rect w.pixels u
        else answer w.request .slotState [] u)
      t

/-! ### Lanes (R133, R134, R135) -/

/-- The off delay starts when the last busy lane becomes IDLE while the supply is ON (R134). -/
def startOffDelay (s : State) : State :=
  if s.panel.supply = .on ∧ s.anyBusy = false then { s with panel.offDelay := .running 2000 } else s

/-- A lane becomes IDLE with a result: its claim is given back and its requesters, or the Turn Engine, are told. -/
def endLane (i : Fin 4) (result : Result) (payload : List Byte) (s : State) : State :=
  let l : Lane := s.panel.lanes[i]
  let t := startOffDelay (answerAll l.requesters result payload (giveBack (.lane i) (setLane i Lane.blank s)))
  if l.origin = .turn then turnEnded result t else t

/-- The load of a lane has ended clean (R132, R134, R138). A halt that CLEAR FAULT has lifted since counts no more
(log 46). -/
def loadClean (i : Fin 4) (s : State) : State :=
  let l : Lane := s.panel.lanes[i]
  let loaded := { l with
    newPixels := readRect l.source l.rect s.pm.cells
    oldPixels := if l.mode = Mode.clear then none else some (readRect 0 l.rect s.pm.cells) }
  if s.panel.halted then endLane i .panelFault [] s
  else if s.panel.supply = .on then setLane i { loaded with state := .driving } s
  else
    let t := setLane i { loaded with state := .loaded } s
    if s.panel.supply = .off then { t with panel.supply := .rising } else t

/-- An uncorrectable word of the source frame: the slot and fault effects (R91). -/
def sourceLost (frame : Nat) (s : State) : State :=
  match frameSlot frame with
  | none => s
  | some i =>
    let t := reportFault .pageMemory (some frame) s
    if s.pm.slots[i].state = .ready ∨ s.pm.slots[i].state = .shown then freeSlotNow false i t else t

/-- An uncorrectable word of frame 0 (R133). -/
def zeroLost (s : State) : State := loseFrameZero (reportFault .pageMemory (some 0) s)

/-- The disagreements among the words that a load reads. -/
def State.loadErrors (s : State) (frame : Nat) (r : Rect) (e : WordError) : Bool :=
  s.pm.errors.any fun f => f.error == e && decide (0 < wordCover (rowSpans (frameBase frame) r) f.word)

/-- The load of a lane ends (R90, R91, R133). -/
def endLoad (i : Fin 4) (reads : LoadReads) (s : State) : State :=
  let l : Lane := s.panel.lanes[i]
  let s1 := addFlips reads.flips s
  let partialMode := l.mode != Mode.clear
  let sourceBad := s1.loadErrors l.source l.rect .double
  let zeroBad := partialMode && s1.loadErrors 0 l.rect .double
  let sourceFixed := s1.loadErrors l.source l.rect .single
  let zeroFixed := partialMode && s1.loadErrors 0 l.rect .single
  let fixedFrame := if sourceFixed then l.source else 0
  let reportFixed := fun t : State =>
    if (sourceFixed || zeroFixed) && (reads.correctedFirst || !(sourceBad || zeroBad)) then
      reportCorrected fixedFrame t
    else t
  let s2 := reportFixed s1
  let s3 :=
    if zeroBad && (reads.zeroFirst || !sourceBad) then endLane i .dataError [] (zeroLost s2)
    else if sourceBad then sourceLost l.source (endLane i .dataError [] s2)
    else loadClean i s2
  applyHeld l.source s3

/-- The supply has been switched on and drives the LOADED lanes (R134). -/
def supplyOn (s : State) : State :=
  { s with
    panel.supply := .on
    panel.lanes := s.panel.lanes.map fun l => if l.state = .loaded then { l with state := .driving } else l }

/-- Panel drive halts (R138). -/
def haltPanel (s : State) : State :=
  removeEntries (fun _ => true) .panelFault { s with panel.halted := true }

/-- The panel supply fails to reach regulation (R137). -/
def supplyFailed (s : State) : State :=
  let severeHeld := s.faults.holdsSevere
  let t := fourIds.foldl
    (fun u i => if u.panel.lanes[i].state = .loaded then endLane i .panelFault [] u else u)
    { s with panel.supply := .off }
  let v := reportFault .panelSupply none t
  if severeHeld then haltPanel v else v

/-- A lane's drive and settling have ended: it completes with DONE, the mode and the PROMOTED mark, one byte that is 0 when
the mark is clear (R135; log 49). -/
def completeLane (i : Fin 4) (flips : List WordFlip) (s : State) : State :=
  let l : Lane := s.panel.lanes[i]
  let s1 := addFlips flips s
  let spans := rowSpans 0 l.rect
  let corrected := !(s1.mergeErrors spans .single).isEmpty
  let lost := !(s1.mergeErrors spans .double).isEmpty
  let s2 := writeRect 0 l.rect l.newPixels s1
  let s3 := { s2 with panel.ghost := driveGhost s2.settings.ghostLimit l.rect l.mode s2.panel.ghost }
  let s4 := if lost then zeroLost s3 else s3
  let s5 := if corrected then reportCorrected 0 s4 else s4
  endLane i .done (item1 l.mode.toNat ++ itemFlag l.promoted) s5

end Sys2Proof.Machine
end

