-- ==== Sys2Proof/Machine/TitleOps.lean ====
section
/-! DEFINITION. What joins the Title Catalogue to its neighbours: the expiry list (R25), the end of transfers (R70), the
effects of a record leaving READY (R23), retirement (R22, R28) and expiry (R26). -/

namespace Sys2Proof.Machine

/-! ### Transfers -/

/-- The transfer that an operation of the Download Engine belongs to. -/
def FlashJob.xfer : FlashJob → Option Nat
  | .erase x _ _ _ => some x
  | .program x _ _ _ _ => some x
  | .verifyRead x _ _ => some x
  | _ => none

/-- The operation belongs to the Download Engine. -/
def FlashJob.isDownload (j : FlashJob) : Bool := j.xfer.isSome

/-- The transfer slot is busy. -/
def TransferSlot.busy (t : TransferSlot) : Bool := t.state != .free

/-- The busy slot that names a handle. -/
def State.slotOf (s : State) (h : Nat) : Option (Fin 4) :=
  fourIds.find? fun i => s.dl.slots[i].busy && s.dl.slots[i].handle == h

/-- The busy slot that carries a transfer tag. -/
def State.slotTagged (s : State) (tag : Nat) : Option (Fin 4) :=
  fourIds.find? fun i => s.dl.slots[i].busy && s.dl.slots[i].tag == tag

/-- The busy slot that holds a transfer. -/
def State.slotHolding (s : State) (xfer : Nat) : Option (Fin 4) :=
  fourIds.find? fun i => s.dl.slots[i].busy && s.dl.slots[i].xfer == xfer

/-- A buffer that the end of a transfer frees: one of its segments that is not being programmed (R70). -/
def dropSegment (xfer : Nat) (b : Option Segment) : Option Segment :=
  match b with
  | some g => if g.xfer = xfer ∧ g.mark ≠ .programming then none else b
  | none => none

/-- A transfer ends (R70): its waiting operations are withdrawn, its buffers freed but for a segment being programmed,
and its slot freed. -/
def endTransfer (i : Fin 4) (s : State) : State :=
  let t : TransferSlot := s.dl.slots[i]
  let u := withdrawOps (fun j => j.xfer == some t.xfer) s
  setTransfer i TransferSlot.blank { u with dl.buffers := u.dl.buffers.map (dropSegment t.xfer) }

/-- The end of a record's transfer reaches the catalogue (R9). -/
def fetchEnded (h : Nat) (state : TitleState) (result : FetchResult) (s : State) : State :=
  if (s.recordAt h).state = .fetching then
    changeRecord h (fun p => { p with state := state, fetch := result }) s
  else s

/-- A transfer fails with TIMEOUT, CHECK or FLASH (R66, R68, R69, R70). -/
def failTransfer (i : Fin 4) (reason : FetchResult) (s : State) : State :=
  let h := s.dl.slots[i].handle
  post .downloadFailed (fetchEnded h .incomplete reason (endTransfer i s))

/-- The tag counter steps (R54). -/
def stepTag (n : Nat) : Nat := if 255 ≤ n then 1 else n + 1

/-- The tag that a new slot takes, found within four tries (R54). -/
def State.pickTag (s : State) : Nat → Nat → Nat
  | 0, n => n
  | fuel + 1, n => if (s.slotTagged n).isSome then s.pickTag fuel (stepTag n) else n

/-- Milliseconds of the inactivity timeout (R69). -/
def State.inactivityMs (s : State) : Nat := s.settings.inactivityTimeout * 1000

/-- Segments of a declared length (section 3.1). -/
def segmentCount (length : Nat) : Nat := (length + 16383) / 16384

/-- A slot is opened for a record (R55, R56). -/
def openTransfer (i : Fin 4) (h length : Nat) (s : State) : State :=
  let tag := s.pickTag 4 s.dl.tagCounter
  let t : TransferSlot :=
    { state := .receiving
      handle := h
      tag := tag
      received := List.replicate (segmentCount length) false
      pending := []
      erased := List.replicate (blocksFor length) false
      erasing := []
      deadline := .running s.inactivityMs
      verification := none
      xfer := s.dl.nextXfer }
  let u := setTransfer i t s
  { u with dl.tagCounter := stepTag tag, dl.nextXfer := s.dl.nextXfer + 1 }

/-- A FREE transfer slot, the lowest-numbered. -/
def State.freeTransfer (s : State) : Option (Fin 4) := fourIds.find? fun i => !s.dl.slots[i].busy

/-- The non-EMPTY record that holds a key (R11). -/
def State.findKey (s : State) (key : TitleKey) : Option Nat :=
  handles.find? fun h => (s.recordAt h).state != .empty && (s.recordAt h).key == key

/-! ### The expiry list (R25) -/

/-- The order of two handles in the expiry list. -/
def State.expiresBefore (s : State) (a b : Nat) : Bool :=
  let ea := (s.recordAt a).expiry.getD 0
  let eb := (s.recordAt b).expiry.getD 0
  decide (ea < eb) || (ea == eb && decide (a < b))

/-- Inserts a handle at its ordered place. -/
def State.insertExpiry (s : State) (h : Nat) : List Nat → List Nat
  | [] => [h]
  | g :: rest => if s.expiresBefore h g then h :: g :: rest else g :: s.insertExpiry h rest

/-- A handle leaves the expiry list. -/
def leaveExpiry (h : Nat) (s : State) : State :=
  { s with cat.expiryList := s.cat.expiryList.filter fun g => decide (g ≠ h) }

/-- States whose records are members when an expiry is present (R25). -/
def TitleState.expires : TitleState → Bool
  | .fetching | .ready | .incomplete => true
  | _ => false

/-- A handle takes its ordered place, or none (R25). -/
def placeExpiry (h : Nat) (s : State) : State :=
  let t := leaveExpiry h s
  if (t.recordAt h).state.expires && (t.recordAt h).expiry.isSome then
    { t with cat.expiryList := t.insertExpiry h t.cat.expiryList }
  else t

/-! ### Reads overtaken (R15) -/

/-- The waiting reads of a record are withdrawn and answered (R15). -/
def withdrawReads (h : Nat) (result : Result) (s : State) : State :=
  let waiting := s.cat.reads.filter fun r => r.handle == h && !r.granted
  let t := { s with cat.reads := s.cat.reads.filter fun r => !(r.handle == h && !r.granted) }
  let u := withdrawOps
    (fun j => match j with
      | .titleRead request _ _ => waiting.any fun r => r.request == request
      | _ => false) t
  answerAll (waiting.map (·.request)) result [] u

/-! ### Retirement and expiry -/

/-- The effects on the neighbours of a record that enters EXPIRED or RETIRING (R23). `fetching`: it was FETCHING. -/
def neighbourEffects (h : Nat) (fetching : Bool) (reason : StopReason) (s : State) : State :=
  let t1 := freeSlots (s.invalidated h fun _ => true) s
  let t2 := titleStopped h reason t1
  let t3 : State :=
    match t2.slotOf h with
    | some i => if fetching then endTransfer i t2 else t2
    | none => t2
  withdrawReads h (if reason = .expired then .expired else .wrongState) t3

/-- A record becomes RETIRING and is tested for completion (R22, R23). -/
def retire (h : Nat) (s : State) : State :=
  let fetching := (s.recordAt h).state == .fetching
  let t := changeRecord h
    (fun p => { p with state := .retiring, fetch := if fetching then .cancelled else p.fetch }) s
  testRetirement h (neighbourEffects h fetching .retiring (leaveExpiry h t))

/-- Retirement on expiry acts on a record (R28). -/
def retireIfExpired (h : Nat) (s : State) : State :=
  if s.settings.retireOnExpiry ∧ (s.recordAt h).state = .expired ∧ (s.recordAt h).holds = 0 then retire h s else s

/-- Retirement on expiry acts on several records, in order (R28). -/
def retireExpired (hs : List Nat) (s : State) : State := hs.foldl (fun t h => retireIfExpired h t) s

/-- A record expires (R26). -/
def expire (h : Nat) (s : State) : State :=
  let fetching := (s.recordAt h).state == .fetching
  let t := changeRecord h
    (fun p => { p with state := .expired, fetch := if fetching then .expired else p.fetch }) s
  neighbourEffects h fetching .expired (leaveExpiry h t)

/-- The heads of the expiry list that are due expire in list order; the handles are kept for retirement on expiry
(R26). -/
def expireDue : Nat → List Nat → State → List Nat × State
  | 0, done, s => (done, s)
  | fuel + 1, done, s =>
    match s.cat.expiryList with
    | [] => (done, s)
    | h :: _ =>
      if (s.recordAt h).expiry.getD 0 ≤ s.keep.seconds then expireDue fuel (done ++ [h]) (expire h s) else (done, s)

/-- The catalogue acts at the head of the expiry list, while time is valid (R26, R27, R28). -/
def processExpiries (s : State) : State :=
  if s.keep.valid then
    let r := expireDue s.cat.expiryList.length [] s
    if r.1 = [] then s else retireExpired r.1 (post .titleExpired r.2)
  else s

/-- The checks that a hold count of 0 allows (R21, R24, R28). -/
def holdsGone (h : Nat) (s : State) : State :=
  if (s.recordAt h).holds = 0 then retireIfExpired h (testRetirement h s) else s

/-- The alarm is reached (R178). -/
def State.alarmReached (s : State) : Bool :=
  match s.keep.alarm with
  | none => false
  | some a => s.keep.valid && decide (a ≤ s.keep.seconds)

end Sys2Proof.Machine
end

