-- ==== Sys2Proof/Machine/PowerOps.lean ====
section
/-! DEFINITION. The Power Controller's operations (chapter 8): entries into DORMANT and SHELF, the end of DORMANT, the
battery band, and the end of an event, in which the budget, the port, the panel and the entries settle. -/

namespace Sys2Proof.Machine

/-! ### Where key events go (R95, R147, R159) -/

/-- A key event that the part takes in READING restarts the dormant delay (R159). -/
def dormantActivity (s : State) : State :=
  if s.power.state = .reading then { s with power.dormantDelay := s.dormantDelayStart } else s

/-- A key event is routed in ACTIVE or READING (R95); every one is activity (R147, R159). -/
def routeKey (event : KeyEvent) (s : State) : State :=
  let t := match event.key with
    | .light => lightPress s
    | .fwd | .back => turnKey event s
    | .power => queueKey event .power s
  dormantActivity (lightActivity t)

/-! ### Entries -/

/-- An entry is in progress, or DORMANT has been reached with something held on which the Power Controller acts next
(R161, R162). -/
def State.holding (s : State) : Bool := s.power.entry.isSome || s.power.heldDue

/-- A cause is added, once. -/
def addCause (c : EntryCause) (causes : List EntryCause) : List EntryCause :=
  if c ∈ causes then causes else causes ++ [c]

/-- DORMANT entry begins (R160): the first step withdraws the entry in admission (R129). -/
def beginDormant (cause : EntryCause) (s : State) : State :=
  withdrawAdmission
    { s with
      power.entry := some .dormant
      power.step := some .lanes
      power.dormantCauses := [cause]
      power.entryFlush := none
      power.dormantDelay := .stopped }

/-- SHELF entry begins in DORMANT (R164). -/
def beginShelf (causes : List EntryCause) (s : State) : State :=
  demandFlush .shelfEntry
    { s with
      power.entry := some .shelf
      power.step := none
      power.dormantCauses := []
      power.shelfCauses := causes
      power.heldShelf := none
      power.heldDue := false
      power.dueExhausted := false
      power.dueTimer := false
      power.attached := false
      power.shelfFlush := none }

/-- The requests whose ENTER SHELF stands behind the entry: a cause, or held (R158, R162). -/
def shelfRequests (causes : List EntryCause) (held : Option HeldRequest) : List HeldRequest :=
  causes.filterMap (fun c => match c with
    | .enterShelf request => some request
    | _ => none) ++ held.toList

/-- The ENTER SHELF causes and the held one. -/
def State.shelfWanted (s : State) : List HeldRequest := shelfRequests s.power.dormantCauses s.power.heldShelf

/-- A battery band whose CRITICAL timer runs while the charger is absent (R171). -/
def Band.timed : Band → Bool
  | .critical | .exhausted => true
  | .normal | .low => false

/-- Suspended transfers resume and held operations are let go (R73). -/
def resumeTransfers (s : State) : State :=
  { s with
    dl.suspended := false
    dl.slots := s.dl.slots.map fun t =>
      if t.state = .suspended then
        { t with
          state := .receiving
          deadline := match t.deadline with
            | .paused n => .running n
            | d => d }
      else t
    port.waiting := s.port.waiting.map fun op => if op.job.isDownload then { op with held := false } else op }

/-- Transfers are suspended and the waiting operations of the Download Engine held back (R72). -/
def suspendTransfers (s : State) : State :=
  { s with
    dl.suspended := true
    dl.slots := s.dl.slots.map fun t =>
      if t.state = .receiving then
        { t with
          state := .suspended
          deadline := match t.deadline with
            | .running n => .paused n
            | d => d }
      else t
    port.waiting := s.port.waiting.map fun op => if op.job.isDownload then { op with held := true } else op }

/-- The light at the end of DORMANT (R153, R148, R149); an alarm keeps it dark. -/
def wakeLight (keepDark reading : Bool) (s : State) : State :=
  { s with
    light.forcedDark := s.light.forcedDark && keepDark
    light.dimmed := false
    light.timedOff := false
    light.refill := true
    light.autoDim := .start s.autoDimMs
    light.lightOff := if reading then .start s.lightOffMs else .stopped }

/-- The wake ends DORMANT to READING; RESUME ACTIVE ends it to ACTIVE. -/
def Wake.toReading : Wake → Bool
  | .key _ | .alarm => true
  | .resume _ => false

/-- DORMANT ends by a wake (R163). A waking key is routed in the new state, and a RESUME ACTIVE is answered. -/
def endDormant (w : Wake) (s : State) : State :=
  let reading := w.toReading
  let t := resumeTransfers
    { s with
      pm.mode := .running
      power.state := if reading then .reading else .active
      power.entry := none
      power.step := none
      power.dormantCauses := []
      power.shelfCauses := []
      power.heldWake := none
      power.heldShelf := none
      power.heldDue := false
      power.dueExhausted := false
      power.dueTimer := false
      power.retryExhausted := false
      power.attached := false
      power.turnBoost := s.power.turnBoost && reading
      power.downloadBoost := s.power.downloadBoost && reading
      power.dormantDelay := if reading then s.dormantDelayStart else .stopped
      power.critical :=
        if s.power.band.timed && !s.power.charger then .running 60000 else s.power.critical }
  let u := wakeLight (w = .alarm) reading t
  match w with
  | .key event => routeKey event u
  | .alarm => u
  | .resume request => answer request.id .ok [] u

/-- A key event offered to the Power Controller during an entry or in DORMANT (R95, R161, R162). -/
def offerKey (event : KeyEvent) (s : State) : State :=
  if s.keyArmed event.key then
    if s.holding then
      if s.power.heldWake = none then { s with power.heldWake := some (.key event) } else s
    else endDormant (.key event) s
  else s

/-- The alarm is tested (R178): in BRINGUP it is held, during an entry it becomes the held wake, in DORMANT it ends
DORMANT. -/
def testAlarm (s : State) : State :=
  if s.alarmReached && s.powered && s.power.state != .bringup then
    let t := post .alarm { s with keep.alarm := none }
    if s.asleep then
      if s.holding then
        if s.power.heldWake = none then { t with power.heldWake := some .alarm } else t
      else endDormant .alarm t
    else t
  else s

/-- SHELF entry for the CRITICAL timer or EXHAUSTED is due (R171). -/
def shelfDue (cause : EntryCause) (s : State) : State :=
  let due : State := if cause = .exhausted then { s with power.dueExhausted := true } else { s with power.dueTimer := true }
  match s.power.entry with
  | some .shelf => s
  | some .dormant => { due with power.dormantCauses := addCause cause s.power.dormantCauses }
  | none =>
    if s.power.state = .dormant then (if s.power.heldDue then due else beginShelf [cause] s)
    else beginDormant cause due

/-! ### The battery (R169, R170) -/

/-- The band of a voltage by the plain thresholds. -/
def bandOf (millivolts : Nat) : Band :=
  if 3600 ≤ millivolts then .normal else if 3450 ≤ millivolts then .low
  else if 3300 ≤ millivolts then .critical else .exhausted

/-- The candidate band of a sample (R169): positions of lower bands are higher. -/
def candidateBand (inForce : Band) (millivolts : Nat) : Band :=
  if inForce.toNat < (bandOf millivolts).toNat then bandOf millivolts
  else if (bandOf (millivolts - 40)).toNat < inForce.toNat then bandOf (millivolts - 40)
  else inForce

/-- The battery becomes a cause (R170). -/
def batteryCause (s : State) : State :=
  match s.power.entry with
  | some .dormant => { s with power.dormantCauses := addCause .battery s.power.dormantCauses }
  | some .shelf => { s with power.shelfCauses := addCause .battery s.power.shelfCauses }
  | none => if s.power.state = .dormant then s else beginDormant .battery s

/-- A change of the band in force after bring-up (R170). -/
def changeBand (band : Band) (s : State) : State :=
  let lower := decide (s.power.band.toNat < band.toNat)
  let t0 := { s with power.band := band, power.bandCount := 0 }
  let t1 := if lower then post .battery t0 else t0
  let t2 := if lower && band.timed then batteryCause (demandFlush .battery t1) else t1
  let t3 :=
    if band.timed && !t2.power.charger && !t2.power.critical.isRunning then { t2 with power.critical := .running 60000 }
    else t2
  let t4 := if band.timed then t3 else { t3 with power.critical := .stopped }
  if band = .exhausted ∧ t4.power.charger = false then shelfDue .exhausted t4 else t4

/-! ### The end of an event: budget, port, write-back, panel (R35, R42, R125, R144, R172, R175, R176) -/

/-- The boost claim goes when no mark is raised or the state is not READING (R176). -/
def boostDrop (s : State) : State :=
  if s.power.state = .reading ∧ (s.power.turnBoost || s.power.downloadBoost) = true then s
  else withdrawClaim .boost (giveBack .boost s)

/-- The boost claim is granted. -/
def State.boostGranted (s : State) : Bool := s.power.granted.any fun c => c.owner == .boost

/-- The boost claim waits. -/
def State.boostWaiting (s : State) : Bool := s.power.waiting.any fun c => c.owner == .boost

/-- The clock rate by its inputs (R175). -/
def State.clockRate (s : State) : ClockRate :=
  match s.power.state with
  | .bringup | .active => .full
  | .dormant | .shelf => .economy
  | .reading => if s.boostGranted || decide (1 < s.busyLanes) then .full else .economy

/-- The clock follows its inputs; a change to ECONOMY withdraws the entry in admission while a lane is busy
(R127, R175). -/
def clockFix (s : State) : State :=
  let t := { s with power.clock := s.clockRate }
  if s.clockRate = .economy ∧ s.power.clock = .full ∧ s.anyBusy = true then withdrawAdmission t else t

/-- What is recomputed after every change. -/
def tidy (s : State) : State := lightFit (clockFix (boostDrop s))

/-- The admission of the entry in admission completes (R128, R119, R136). -/
def admitEntry (s : State) : State :=
  match s.inAdmission, fourIds.find? (fun i => s.panel.lanes[i].state == .idle) with
  | some e, some i =>
    match e.admission with
    | none => s
    | some a =>
      let s1 : State :=
        if a.mode = .clear then
          { s with
            panel.band := temperatureBand (Config.freshTemperature s.freeCount)
            freeCount := s.freeCount + 1 }
        else s
      let lane : Lane :=
        { state := .loading
          source := e.source
          rect := e.rect
          mode := a.mode
          promoted := a.promoted
          origin := e.origin
          requesters := e.requesters
          frames := s1.waveform.counts.getD (8 * a.mode.toNat + s1.panel.band) 0
          newPixels := []
          oldPixels := none }
      let s2 := setLane i lane s1
      { s2 with
        power.granted := s2.power.granted ++ [⟨.lane i, a.mode.claim⟩]
        panel.queue := s2.panel.queue.filter fun q => decide (q.order ≠ e.order)
        panel.zeroKnown := s2.panel.zeroKnown || a.forced
        panel.offDelay := .stopped }
  | _, _ => s

/-- A claim is granted, at its owner (R172). -/
def grantTo (c : Claim) (s : State) : State :=
  match c.owner with
  | .admission => admitEntry s
  | .port =>
    match s.port.phase with
    | .claiming op => { s with power.granted := s.power.granted ++ [c], port.phase := .busy op }
    | _ => s
  | .boost | .lane _ => { s with power.granted := s.power.granted ++ [c] }

/-- The head waiting claim is granted if it fits (R172). -/
def grantHead (s : State) : Option State :=
  match s.power.waiting with
  | [] => none
  | c :: rest =>
    if s.grantedSum + s.power.lightClaim + c.units ≤ s.ceiling then some (grantTo c { s with power.waiting := rest })
    else none

/-- The operation of the lowest class that is not held back, and within the class the one placed first (R35). -/
def bestOp : List FlashOp → Option FlashOp
  | [] => none
  | op :: rest =>
    if op.held then bestOp rest
    else
      match bestOp rest with
      | none => some op
      | some best => if best.cls < op.cls then some best else some op

/-- The claim of an operation (R34). -/
def FlashJob.claim : FlashJob → Nat
  | .titleRead _ _ _ | .verifyRead _ _ _ | .bringupRead _ => 10
  | .erase _ _ _ _ | .program _ _ _ _ _ | .sectorWrite _ _ _ | .settingsWrite _ _ | .waveformWrite _ _ => 25

/-- What a grant of the port tells the owner: a title read is granted (R14), a segment is being programmed. -/
def portGranted (job : FlashJob) (s : State) : State :=
  match job with
  | .titleRead request _ _ =>
    { s with cat.reads := s.cat.reads.map fun r => if r.request = request then { r with granted := true } else r }
  | .program _ _ _ _ buffer =>
    setBuffer buffer (s.dl.buffers[buffer].map fun g => { g with mark := .programming }) s
  | _ => s

/-- The IDLE port chooses an operation and places its claim (R35). -/
def choosePort (s : State) : Option State :=
  if s.port.phase = .idle then
    (bestOp s.port.waiting).map fun op =>
      placeClaim .port op.job.claim
        (portGranted op.job { s with port.phase := .claiming op, port.waiting := s.port.waiting.erase op })
  else none

/-- The Panel Drive Unit chooses an entry (R125). -/
def choosePanel (s : State) : Option State := s.nextAdmissible.map fun e => beginAdmission e s

/-- An unload begins (R42). -/
def chooseUnload (s : State) : Option State := if s.unloadDue then some (unload s) else none

/-- The boost claim is placed (R176). -/
def placeBoost (s : State) : Option State :=
  if s.power.state = .reading ∧ (s.power.turnBoost || s.power.downloadBoost) = true
      ∧ (s.boostGranted || s.boostWaiting) = false then
    some (placeClaim .boost 15 s)
  else none

/-- The next effect that stands in the event (log 11). -/
def settleOnce (s : State) : Option State :=
  (chooseUnload s).orElse fun _ => (grantHead s).orElse fun _ => (choosePort s).orElse fun _ =>
    (choosePanel s).orElse fun _ => placeBoost s

/-- At most `fuel` effects of an event run. -/
def settleBy : Nat → State → State
  | 0, s => tidy s
  | fuel + 1, s =>
    match settleOnce (tidy s) with
    | none => tidy s
    | some t => settleBy fuel t

/-- The effects of an event run until none is left (log 11). Beyond the waiting claims, an event starts at most an unload,
an operation of the port, an update for each lane and a boost, each with a claim, so the bound is not reached. -/
def settle (s : State) : State := settleBy (s.power.waiting.length + 40) s

/-! ### The end of an event: transfers and entries (R74, R75, R160, R164) -/

/-- Some slot is RECEIVING or VERIFYING (R75). -/
def State.anyTransfer (s : State) : Bool :=
  s.dl.slots.toList.any fun t => t.state == .receiving || t.state == .verifying

/-- The Download Engine reports its transfers, on which a deferred DORMANT entry begins (R75, R159), and the end of the
download boost (R74). -/
def transferReport (s : State) : State :=
  let t := { s with
    power.transfersActive := s.anyTransfer
    power.downloadBoost := s.power.downloadBoost && s.dl.buffers.toList.any Option.isSome }
  if s.power.transfersActive && !s.anyTransfer && s.power.dormantDelay == .deferred && s.power.state == .reading
      && s.power.entry.isNone then
    beginDormant .dormantDelay t
  else t

/-- DORMANT is reached (R162). -/
def reachDormant (outcome : FlushEnd) (s : State) : State :=
  let waiting := s.power.dormantCauses.filterMap fun c => match c with
    | .enterDormant request => some request.id
    | _ => none
  let t := { s with
    pm.mode := .selfRefresh
    power.state := .dormant
    power.entry := none
    power.step := none
    power.heldDue :=
      s.power.heldWake.isSome || !s.shelfWanted.isEmpty || s.power.dueExhausted || s.power.dueTimer }
  let u := if t.power.heldDue then t else { t with power.dormantCauses := [] }
  answerAll waiting .ok (item1 (if outcome = .completed then Result.ok else Result.halted).toNat) u

/-- The next step of DORMANT entry, where the step in progress is complete (R160). -/
def advanceEntry (s : State) : Option State :=
  if s.power.entry = some .dormant then
    match s.power.step with
    | some .lanes =>
      if s.anyBusy then none
      else
        some { s with
          panel.supply := .off
          panel.offDelay := .stopped
          power.step := some .light
          light.forcedDark := true
          light.autoDim := .stopped
          light.lightOff := .stopped }
    | some .light =>
      if s.light.warmOutput = 0 ∧ s.light.coolOutput = 0 then
        some (suspendTransfers { s with power.step := some .transfers })
      else none
    | some .transfers =>
      if (s.granted.map FlashJob.isDownload).getD false then none
      else some (demandFlush .dormantEntry { s with power.step := some .flush })
    | some .flush => s.power.entryFlush.map fun how => reachDormant how s
    | _ => none
  else none

/-- The walk of DORMANT entry goes as far as this event takes it. -/
def entryWalk : Nat → State → State
  | 0, s => s
  | fuel + 1, s =>
    match advanceEntry s with
    | none => s
    | some t => entryWalk fuel (settle (transferReport t))

/-- Everything of the main domain returns to its reset value (R156); the queue of waiting commands, the flash, the
keep-alive domain and the supplies stay. -/
def mainReset (s : State) : State :=
  { State.blank with
    pending := s.pending
    flash := s.flash
    keep := s.keep
    supplies := s.supplies
    freeCount := s.freeCount }

/-- SHELF is reached (R164): the marker is set, the main domain is off, and without a backup supply the keep-alive
domain loses its power too. -/
def reachShelf (s : State) : State :=
  let t := mainReset (cutOff s)
  { t with
    power.state := .shelf
    pm.mode := .off
    keep.shelfMarker := true
    keep.powered := s.keep.powered && s.supplies.backup }

/-- A held wake that no row has acted on ends DORMANT (R164). -/
def actOnHeldWake (s : State) : State :=
  match s.power.heldWake with
  | none => s
  | some w => endDormant w s

/-- SHELF entry ends without SHELF; its requests are answered. -/
def stopShelf (result : Result) (s : State) : State :=
  answerAll ((shelfRequests s.power.shelfCauses s.power.heldShelf).map (·.id)) result []
    { s with power.entry := none, power.shelfCauses := [], power.heldShelf := none, power.shelfFlush := none }

/-- The end of the flush decides SHELF entry (R164, R171). -/
def shelfEnd (s : State) : State :=
  if s.power.entry = some .shelf then
    let exhausted := decide (EntryCause.exhausted ∈ s.power.shelfCauses)
    let timer := decide (EntryCause.criticalTimer ∈ s.power.shelfCauses)
    match s.power.shelfFlush with
    | none => s
    | some .completed =>
      if s.power.heldWake.isSome && !exhausted then actOnHeldWake (stopShelf .cancelled s)
      else if s.power.attached && (timer || exhausted) then actOnHeldWake (stopShelf .cancelled s)
      else reachShelf s
    | some .halted =>
      let t := post .battery (stopShelf .halted s)
      let u := { t with
        power.retryExhausted := s.power.retryExhausted || exhausted
        power.critical :=
          if timer && t.power.band.timed && !t.power.charger then .running 60000 else t.power.critical }
      actOnHeldWake u
  else s

/-- The end of every event that changes state: the end of a flush decides SHELF entry, before anything else is begun in the
event, transfers report, the resources settle, entries go on, and the output lines follow. -/
def conclude (s : State) : State := refreshPins (entryWalk 8 (settle (transferReport (shelfEnd s))))

/-! ### Commands as events -/

/-- An event of the part: it takes the machine to a next state, or, where the present state cannot give it, changes
nothing (log 10). -/
def happen (s : State) (t : Option State) : Host.Outcome State Fault Refusal :=
  .next ((t.map conclude).getD s)

/-- A condition for an event. -/
def given (condition : Bool) (t : State) : Option State := if condition then some t else none

/-! ### Resets (R165, R190, R200) -/

/-- A bring-up read is placed (R34, R190). -/
def placeBringup (what : BringupRead) (s : State) : State := placeOp 0 false (.bringupRead what) s

/-- The Start step of bring-up (R190): the SHELF marker is copied and cleared (R165), CHG and the battery are taken, the
band is set from the sample (R169, R170), and step 1 begins. -/
def startBringup (inputs : ResetInputs) (s : State) : State :=
  let band := bandOf inputs.millivolts
  let t := { mainReset (cutOff s) with
    keep := { s.keep with shelfMarker := false } }
  let u := { t with
    power.fromShelf := s.keep.shelfMarker
    power.charger := inputs.charger
    power.millivolts := inputs.millivolts
    power.band := band
    power.critical := if band.timed && !inputs.charger then .running 60000 else .stopped }
  placeBringup .settings (if band = .normal then u else post .battery u)

/-- Main and keep-alive power are newly applied: the keep-alive domain takes its defaults too. -/
def coldStart (inputs : ResetInputs) (backup : Bool) (s : State) : State :=
  let t := cutOff s
  startBringup inputs { mainReset t with keep := KeepAlive.cold, supplies := ⟨true, backup⟩ }

/-- A part reset; where the keep-alive domain has lost its power, the reset is a cold start (R156). -/
def partReset (inputs : ResetInputs) (s : State) : State :=
  if s.keep.powered then startBringup inputs { s with supplies.main := true }
  else coldStart inputs s.supplies.backup s

/-- CS_N rises after an accepted RESTART: the part reset begins (R200). Its battery sample is a free value, and CHG is at
the level last taken (log 35). -/
def restarted (s : State) : State :=
  conclude (partReset ⟨Config.resetSample s.freeCount, s.power.charger⟩ { s with freeCount := s.freeCount + 1 })

end Sys2Proof.Machine
end

