-- ==== Sys2Proof/Machine/LinkOps.lean ====
section
/-! DEFINITION. How a request frame is checked, taken and answered at the Host Link Port (R192 to R195, R166). -/

namespace Sys2Proof.Machine

/-- The immediate status after a frame (section 11.7). -/
def State.status (s : State) (code : Immediate) (tag : Fin 16) : ImmediateStatus :=
  ⟨code, tag, s.link.outstanding.length, s.link.replies.length⟩

/-- A new transaction: an answer that an earlier one was clocking out is over (R197). -/
def endFetch (s : State) : State := { s with link.fetching := false }

/-- A transaction begins, so CS_N has risen: after an accepted RESTART the part has been reset (R200). -/
def beginTransaction (s : State) : State := if s.link.restart then restarted s else endFetch s

/-- What the part shifts out after a frame. -/
def shiftOut (code : Immediate) (tag : Fin 16) (inline : Option Reply) (s : State) : State :=
  { s with link.out := .answer (s.status code tag) inline }

/-- The first check of R193 that a frame with a known code fails. -/
def State.refusal (s : State) (code : RequestCode) (f : Frame) : Option Immediate :=
  if !(Frame.crcGood code.toNat f && Frame.flagsGood f) then some .frameError
  else if s.power.state == .bringup && code != .status then some .starting
  else if !code.inline && decide (8 ≤ s.link.outstanding.length) then some .busy
  else if !code.inline && s.link.outstanding.any (fun o => o.tag == f.tag) then some .tagInUse
  else none

/-- The port accepts a request that is not in-line: it becomes outstanding under its tag (R193, R194). -/
def accept (code : RequestCode) (f : Frame) (s : State) : State :=
  { s with
    link.outstanding := s.link.outstanding ++ [⟨s.link.nextId, f.tag, code, false⟩]
    link.nextId := s.link.nextId + 1 }

/-- The answers that come before the request's own checks: ASLEEP by state, and OUT_OF_RANGE for an expected revision
or a payload length that the request does not allow (R166, R195). -/
def State.portAnswer (s : State) (code : RequestCode) (f : Frame) : Option Result :=
  if s.asleep && !code.takenAsleep then some .asleep
  else if Frame.expects f && !code.isChange then some .outOfRange
  else if !code.lengthGood (Frame.body f) then some .outOfRange
  else none

/-- What becomes of an accepted request: the port's own answer, or its owner's verdict. An answer that changes nothing
else leaves only the output lines to follow. -/
def serve (id : Nat) (portAnswer : Option Result) (own : Nat → State → Verdict) (s : State) : State :=
  match portAnswer with
  | some r => refreshPins (answer id r [] s)
  | none =>
    match own id s with
    | .answered r payload => refreshPins (answer id r payload s)
    | .acted t => conclude t

/-- A request frame that is not in-line ends (R193). `own` is the owner's rule for the request's number. DESIGN CHOICE
(log 72): an ENTER SHELF whose own event reaches SHELF leaves its immediate status, ACCEPTED with the counts 0 and 0, at the
port, which has no power from then on. -/
def hostRequest (code : RequestCode) (f : Frame) (own : Nat → State → Verdict) (s : State) :
    Host.Outcome State Fault Refusal :=
  if s.powered then
    let t := beginTransaction s
    match t.refusal code f with
    | some c => .next (shiftOut c f.tag none t)
    | none => .next (shiftOut .accepted f.tag none (serve t.link.nextId (t.portAnswer code f) own (accept code f t)))
  else .next s

/-- An in-line request ends (R193): it is acted on in that event, and the answer follows the immediate status. `act`
gives the new state and the answer. -/
def inlineRequest (code : RequestCode) (f : Frame) (act : State → State × Reply) (s : State) :
    Host.Outcome State Fault Refusal :=
  if s.powered then
    let t := beginTransaction s
    match t.refusal code f with
    | some c => .next (shiftOut c f.tag none t)
    | none =>
      if Frame.expects f || !code.lengthGood (Frame.body f) then
        .next (shiftOut .accepted f.tag (some ⟨f.tag, some code, .outOfRange, []⟩) t)
      else
        let r := act t
        .next (refreshPins (shiftOut .accepted f.tag (some r.2) r.1))
  else .next s

/-! ### Shapes of a verdict -/

/-- The request is answered in the event, with the state that the answer finds: the reply carries what `payload` reads
from it. -/
def Verdict.done (id : Nat) (result : Result) (payload : State → List Byte) (t : State) : Verdict :=
  .acted (answer id result (payload t) t)

/-- OK without a payload. -/
def Verdict.ok (id : Nat) (t : State) : Verdict := .acted (answer id .ok [] t)

/-- A refusal without a payload. -/
def Verdict.refuse (result : Result) : Verdict := .answered result []

/-- The checks of a change request (R4): the handle, the expected revision, the state, then the limits. `states` gives
the refusal of the record's state, `limits` the later ones. A refusal of a valid handle carries the revision. -/
def changeChecks (f : Frame) (states : TitleState → Option Result) (limits : TitleRecord → Option Result) (s : State) :
    Option Verdict :=
  let h := field (Frame.body f) 0 2
  if !validHandle h then some (.refuse .badHandle)
  else if (Frame.revision f).any (fun r => r != (s.recordAt h).revision) then
    some (.answered .staleRevision (revisionItem h s))
  else
    match states (s.recordAt h).state with
    | some r => some (.answered r (revisionItem h s))
    | none => (limits (s.recordAt h)).map fun r => .answered r (revisionItem h s)

/-- WRONG_STATE for an EMPTY or RETIRING record (R16 to R19, R22). -/
def liveOnly : TitleState → Option Result
  | .empty | .retiring => some .wrongState
  | _ => none

/-- No limit of its own. -/
def noLimit : TitleRecord → Option Result := fun _ => none

end Sys2Proof.Machine
end

