-- ==== Sys2Proof/Machine/SettingsOps.lean ====
section
/-! DEFINITION. The settings image (R186, R188, and the word map of section 11.7), the waveform image (R189), the
application of settings (R187), and the rebuild of the catalogue (R50, R51). -/

namespace Sys2Proof.Machine

/-! ### The settings image -/

/-- Word `n` of an image. -/
def word (ws : List Nat) (n : Nat) : Nat := ws.getD n 0

/-- The image is well formed (R186). -/
def settingsWellFormed (image : List Byte) : Bool :=
  image.length == 2048 && word (wordsOf image) 0 == 0xA53C && (wordsOf image).sum % 65536 == 0x4A45

/-- A field within its range takes the value stored, any other its default (R186). -/
def inRange (lo hi dflt v : Nat) : Nat := if lo ≤ v ∧ v ≤ hi then v else dflt

/-- A switch field: 0 off, 1 on. -/
def inSwitch (dflt : Bool) (v : Nat) : Bool := if v = 0 then false else if v = 1 then true else dflt

/-- The flash size code; reserved codes take the default. -/
def inFlashSize : Nat → FlashSize
  | 0 => .mib64
  | 1 => .mib128
  | 2 => .mib256
  | 3 => .mib512
  | _ => .mib256

/-- The readings are strictly ascending. -/
def ascending : List Nat → Bool
  | a :: b :: rest => decide (a < b) && ascending (b :: rest)
  | _ => true

/-- The ambient table is judged whole (R186). -/
def ambientGood (readings factors : List Nat) : Bool :=
  readings.all (fun r => decide (r ≤ 4095)) && ascending readings && factors.all fun q => decide (q ≤ 32767)

/-- Position of BATTERY in the item order (R167). -/
def batteryItem : ItemSet := 0x2000#16

/-- The working settings of the words of a well-formed image (R186). -/
def formSettings (ws : List Nat) : Settings :=
  let d := Settings.standard
  let q := fun n dflt => inRange 0 32767 dflt (word ws n)
  let readings := (List.range 8).map fun i => word ws (64 + i)
  let factors := (List.range 8).map fun i => word ws (72 + i)
  let table := ambientGood readings factors
  { flashSize := inFlashSize (word ws 1)
    unloadThreshold := inRange 1 8 d.unloadThreshold (word ws 2)
    writeBackDelay := inRange 1 600 d.writeBackDelay (word ws 3)
    retireOnExpiry := inSwitch d.retireOnExpiry (word ws 4)
    inactivityTimeout := inRange 10 3600 d.inactivityTimeout (word ws 5)
    reportCorrected := inSwitch d.reportCorrected (word ws 6)
    behindKeep := inRange 0 8 d.behindKeep (word ws 7)
    refillMark := inRange 1 16 d.refillMark (word ws 8)
    ghostLimit := inRange 1 15 d.ghostLimit (word ws 9)
    defaultLevel := inRange 0 31 d.defaultLevel (word ws 10)
    defaultWarmth := q 11 d.defaultWarmth
    defaultAuto := inSwitch d.defaultAuto (word ws 12)
    dimFactor := q 13 d.dimFactor
    maskFactor := q 14 d.maskFactor
    masking := inSwitch d.masking (word ws 15)
    capNormal := q 16 d.capNormal
    capLow := q 17 d.capLow
    capCritical := q 18 d.capCritical
    capExhausted := q 19 d.capExhausted
    rampRate := inRange 1 7 d.rampRate (word ws 20)
    autoDimDelay := inRange 0 3600 d.autoDimDelay (word ws 21)
    lightOffDelay := inRange 0 3600 d.lightOffDelay (word ws 22)
    dormantDelay := inRange 0 240 d.dormantDelay (word ws 23)
    ceilingNormal := inRange 80 250 d.ceilingNormal (word ws 24)
    ceilingLow := inRange 80 250 d.ceilingLow (word ws 25)
    ceilingCritical := inRange 80 250 d.ceilingCritical (word ws 26)
    capability := BitVec.ofNat 16 (word ws 27) ||| batteryItem
    levelCurve := (List.range 32).map fun l => q (32 + l) (l * l * 34)
    ambientReadings := if table then readings else d.ambientReadings
    ambientFactors := if table then factors else d.ambientFactors }

/-- A switch on the word map. -/
def switchWord (b : Bool) : Nat := if b then 1 else 0

/-- Words 0 to 79 of the working image (R188); the flash size field holds the value last stored. -/
def workingWords (c : Settings) (stored : FlashSize) : List Nat :=
  [0xA53C, stored.toNat, c.unloadThreshold, c.writeBackDelay, switchWord c.retireOnExpiry, c.inactivityTimeout,
    switchWord c.reportCorrected, c.behindKeep, c.refillMark, c.ghostLimit, c.defaultLevel, c.defaultWarmth,
    switchWord c.defaultAuto, c.dimFactor, c.maskFactor, switchWord c.masking, c.capNormal, c.capLow, c.capCritical,
    c.capExhausted, c.rampRate, c.autoDimDelay, c.lightOffDelay, c.dormantDelay, c.ceilingNormal, c.ceilingLow,
    c.ceilingCritical, c.capability.toNat, 0, 0, 0, 0]
    ++ c.levelCurve ++ c.ambientReadings ++ c.ambientFactors

/-- The word that carries the recomputed word sum: one of the unassigned words 28 to 31 and 80 to 1023 (log 18). -/
def sumPosition : Nat := let n := Config.sumWord % 948; if n < 4 then 28 + n else 76 + n

/-- The working image of READ SETTINGS (R188). -/
def workingImage (c : Settings) (stored : FlashSize) : List Byte :=
  let ws := workingWords c stored ++ List.replicate 944 0
  let rest := (0x4A45 + 65536 - ws.sum % 65536) % 65536
  (ws.set sumPosition rest).flatMap (leBytes 2)

/-- Items that have become NEVER are disarmed (R167). -/
def disarm (s : State) : State := { s with keep.arming := s.keep.arming &&& s.settings.capability }

/-- A settings write has ended with success: the owners take their fields (R187). A new ambient table acts on the ambient
factor from the next sample on (log 52). DESIGN CHOICE (log 67): for a reserved flash size code the stored size is the
default that stands in its place (R186, R188). -/
def applySettings (c : Settings) (s : State) : State :=
  let turnedOn := c.retireOnExpiry && !s.settings.retireOnExpiry
  let t := disarm
    { s with
      settings := c
      storedSize := c.flashSize
      panel.ghost := s.panel.ghost.map fun n => min n c.ghostLimit }
  let u := if t.turn.title ≠ 0 ∧ c.refillMark ≤ t.pagesAhead then { t with turn.refillArmed := true } else t
  if turnedOn then retireExpired handles u else u

/-! ### The waveform image -/

/-- The image is valid (R189). -/
def waveformValid (image : List Byte) : Bool :=
  let ws := wordsOf image
  image.length % 2 == 0 && decide (128 ≤ image.length) && decide (image.length ≤ 16384)
    && word ws 0 == 0x5E71 && word ws 1 == ws.length && ws.sum % 65536 == 0x4A57
    && ((ws.drop 2).take 32).all fun n => decide (1 ≤ n) && decide (n ≤ 255)

/-- The table of a valid image. -/
def waveformOf (image : List Byte) : Waveform := ⟨((wordsOf image).drop 2).take 32, false, wordsOf image⟩

/-! ### The rebuild (R39, R50, R51) -/

/-- The conditions that the extents of a non-EMPTY slot meet when the slot is readable (R39). -/
def extentsReadable (p : Persisted) : Bool :=
  let n := extentBlocks p.extents
  let k := blocksFor (p.declaredLength.getD 0)
  decide (1 ≤ p.extents.length) && decide (p.extents.length ≤ 16) && p.extents.all (fun e => decide (1 ≤ e.count))
    && decide (n ≤ k)
    && (n == k || (p.fetch != .done && p.state != .ready && p.state != .fetching))

/-- The slot is readable (R39). -/
def readable (p : Persisted) : Bool :=
  p.state == .empty
    || (p.key != 0 && decide (1 ≤ p.declaredLength.getD 0) && decide (p.declaredLength.getD 0 ≤ 67108864)
      && extentsReadable p)

/-- The slot of a handle as bring-up finds it; none when it is unreadable. -/
def State.readSlot (s : State) (h : Nat) : Option Persisted :=
  if g : 1 ≤ h ∧ h ≤ 1024 then
    match s.flash.slots[h - 1]'(by omega) with
    | .whole p => if readable p then some p else none
    | .unreadable => none
  else none

/-- Block after the last title block in force. -/
def State.blockEnd (s : State) : Nat := s.blocks.size.titleBlocks + 8

/-- The part of an extent within the title blocks in force. -/
def cutExtent (last : Nat) (e : Extent) : Extent :=
  let start := max 8 e.start
  ⟨start, min last (e.start + e.count) - start⟩

/-- The extent lies wholly within the title blocks in force. -/
def withinTitle (last : Nat) (e : Extent) : Bool := decide (8 ≤ e.start) && decide (e.start + e.count ≤ last)

/-- Marks the blocks of one extent; none where a block is not FREE. -/
def claimRun (c : BlockCondition) : Nat → Nat → List BlockCondition → Option (List BlockCondition)
  | _, 0, l => some l
  | _, _ + 1, [] => none
  | 0, n + 1, x :: l => if x = .free then (claimRun c 0 n l).map (c :: ·) else none
  | k + 1, n + 1, x :: l => (claimRun c k (n + 1) l).map (x :: ·)

/-- Marks the blocks of a record's extents; none where a block is already marked or appears twice (R50 row 6). -/
def claimExtents (c : BlockCondition) : List Extent → List BlockCondition → Option (List BlockCondition)
  | [], l => some l
  | e :: rest, l => (claimRun c (e.start - 8) e.count l).bind (claimExtents c rest)

/-- A record as the rebuild leaves it, changed or not. -/
def rebuiltRecord (p : Persisted) (changed : Bool) : TitleRecord :=
  { (if changed then { p with revision := p.revision + 1 } else p) with holds := 0, dirty := changed }

/-- The record that a correction makes EMPTY: its revision is raised by 1 (R50). -/
def emptied (p : Persisted) : TitleRecord := rebuiltRecord { Persisted.blank with revision := p.revision } true

/-- Rows 4 to 6 of the rebuild and the marking step for a slot that passed row 3 (R50). -/
def rebuildExtents (h : Nat) (p : Persisted) (s : State) : State :=
  let last := s.blockEnd
  let kept := (p.extents.map (cutExtent last)).filter fun e => decide (0 < e.count)
  let inside := p.extents.all (withinTitle last)
  if !inside && kept.isEmpty then setRecord h (emptied p) (reportFault .extentRange (some h) s)
  else
    let q : Persisted :=
      if inside then p
      else { p with
        extents := kept
        state := if p.state = .retiring then .retiring else .incomplete
        fetch := .reset }
    let t := if inside then s else reportFault .extentRange (some h) s
    let mark := if q.state = .retiring then BlockCondition.releasing (sectorOf h) else .owned h
    match claimExtents mark q.extents t.blocks.conditions with
    | none => setRecord h (emptied p) (reportFault .catalogueConflict (some h) t)
    | some conditions =>
      let u := { t with blocks.conditions := conditions }
      match q.state with
      | .retiring =>
        setRecord h (emptied p)
          { u with blocks.releaseList := u.blocks.releaseList ++ q.extents.map fun e => ⟨e, sectorOf h, none⟩ }
      | .fetching => setRecord h (rebuiltRecord { q with state := .incomplete, fetch := .reset } true) u
      | _ => setRecord h (rebuiltRecord q (!inside)) u

/-- The first unreadable slot of its sector reports the sector (R50). -/
def State.firstUnreadable (s : State) (h : Nat) : Bool :=
  ((sectorHandles (sectorOf h)).find? fun g => (s.readSlot g).isNone) == some h

/-- A lower handle already rebuilt as non-EMPTY holds the key (R50 row 3). -/
def State.keyTaken (s : State) (h : Nat) (key : TitleKey) : Bool :=
  (handles.take (h - 1)).any fun g => (s.recordAt g).state != .empty && (s.recordAt g).key == key

/-- The rebuild takes one slot (R50). -/
def rebuildSlot (s : State) (h : Nat) : State :=
  match s.readSlot h with
  | none =>
    let t := if s.firstUnreadable h then reportFault .catalogueSlot (some (sectorOf h)) s else s
    setRecord h { TitleRecord.blank with dirty := true } t
  | some p =>
    if p.state = .empty then setRecord h (rebuiltRecord { Persisted.blank with revision := p.revision } false) s
    else if s.keyTaken h p.key then setRecord h (emptied p) (reportFault .catalogueConflict (some h) s)
    else rebuildExtents h p s

/-- The rebuild takes a sector. -/
def rebuildSector (sector : Nat) (s : State) : State := (sectorHandles sector).foldl rebuildSlot s

/-- Every record left dirty is reported, and the expiry list is built (R25, R51). -/
def completeRebuild (s : State) : State :=
  let t := handles.foldl (fun u h => if (u.recordAt h).dirty then reportSector (sectorOf h) u else u) s
  handles.foldl (fun u h => placeExpiry h u) { t with cat.expiryList := [] }

end Sys2Proof.Machine
end

