-- ==== Sys2Proof/Machine/BringUp.lean ====
section
/-! DEFINITION. Resets and bring-up: COLD_START, PART_RESET, SHELF_WAKE, BRINGUP_READ_END, BRINGUP_COMPLETION and
MAIN_SUPPLY_LOSS (R165, R190, R191, and the reset kinds of the introduction). -/

namespace Sys2Proof.Machine

/-- COLD_START. -/
def execColdStart (inputs : ResetInputs) (backup : Bool) (s : State) : Host.Outcome State Fault Refusal :=
  happen s (some (coldStart inputs backup s))

/-- PART_RESET. -/
def execPartReset (inputs : ResetInputs) (s : State) : Host.Outcome State Fault Refusal :=
  happen s (some (partReset inputs s))

/-- SHELF_WAKE (R165): the keep-alive domain takes the POWER press or the charger's attach. -/
def execShelfWake (inputs : ResetInputs) (s : State) : Host.Outcome State Fault Refusal :=
  happen s (given (s.supplies.main && s.power.state == .shelf && s.keep.powered) (partReset inputs s))

/-- Step 1 runs on the settings read (R186, R190); the ghost limit that it gives is every ghost count from then on
(R130). DESIGN CHOICE (log 67): for a reserved flash size code the stored size is the default that stands in its place
(R186, R188). -/
def settingsRead (s : State) : State :=
  let good := settingsWellFormed s.flash.settings
  let c := if good then formSettings (wordsOf s.flash.settings) else Settings.standard
  let t := disarm
    { s with
      settings := c
      storedSize := c.flashSize
      settingsGood := good
      light.level := c.defaultLevel
      light.warmth := c.defaultWarmth
      light.auto := c.defaultAuto
      blocks := ⟨c.flashSize, List.replicate c.flashSize.titleBlocks .free, []⟩
      panel.ghost := List.replicate 195 c.ghostLimit
      power.bringup := .waveforms }
  placeBringup .waveforms (if good then t else reportFault .settings (some 4) t)

/-- Step 2 runs on the waveform read (R189, R190). -/
def waveformRead (s : State) : State :=
  let good := waveformValid s.flash.waveform
  let t := { s with
    waveform := if good then waveformOf s.flash.waveform else Waveform.standard
    power.bringup := .rebuild }
  placeBringup (.sector 0) (if good then t else reportFault .waveform (some 5) t)

/-- Steps 4 and the beginning of step 5 (R27, R28, R130, R136, R190). -/
def afterRebuild (s : State) : State :=
  let t := processExpiries (completeRebuild s)
  let u := if t.settings.retireOnExpiry then retireExpired handles t else t
  { u with
    panel.zeroKnown := false
    panel.ghost := List.replicate 195 u.settings.ghostLimit
    power.bringup := .pageMemory }

/-- Step 3 runs on a sector read (R50, R51). -/
def sectorRead (sector : Nat) (s : State) : State :=
  let t := rebuildSector sector s
  if sector < 63 then placeBringup (.sector (sector + 1)) t else afterRebuild t

/-- A bring-up read has ended. -/
def bringupRead (what : BringupRead) (s : State) : State :=
  match what with
  | .settings => settingsRead s
  | .waveforms => waveformRead s
  | .sector n => sectorRead n s

/-- BRINGUP_READ_END. -/
def execBringupReadEnd (s : State) : Host.Outcome State Fault Refusal :=
  happen s
    (match s.running with
    | some (.bringupRead what) =>
      given (s.powered && s.power.state == .bringup) (bringupRead what (endOperation s))
    | _ => none)

/-- The key lines as they are first taken (R94). -/
def pressedLines (pressed : List Key) : KeyLines :=
  ⟨decide (Key.fwd ∈ pressed), decide (Key.back ∈ pressed), decide (Key.light ∈ pressed), decide (Key.power ∈ pressed)⟩

/-- Page memory initialisation ends, and with it bring-up (R80, R190). -/
def completeBringup (temperature : Int) (pressed : List Key) (ambient : Nat) (s : State) : State :=
  let t := takeAmbient ambient
    { s with
      pm := PageMemory.blank
      panel.band := temperatureBand temperature
      power.state := .active
      power.bringup := .complete
      keys := pressedLines pressed
      wb.elapsed := 0
      light.autoDim := .start s.autoDimMs }
  let u := testAlarm (post .bringupDone t)
  if u.power.criticalRanOut then shelfDue .criticalTimer { u with power.criticalRanOut := false } else u

/-- BRINGUP_COMPLETION. -/
def execBringupCompletion (temperature : Int) (pressed : List Key) (ambient : Nat) (s : State) :
    Host.Outcome State Fault Refusal :=
  happen s
    (given (s.powered && s.power.state == .bringup && s.power.bringup == .pageMemory)
      (completeBringup temperature pressed ambient s))

/-- Loss of the main supply (R191): the main domain is off and the operation in progress cut off; the keep-alive domain
stays while VKA stays valid. -/
def mainLoss (vkaStays : Bool) (s : State) : State :=
  let t := mainReset (cutOff s)
  { t with
    supplies.main := false
    pm.mode := .off
    keep.powered := s.keep.powered && s.supplies.backup && vkaStays }

/-- MAIN_SUPPLY_LOSS. -/
def execMainSupplyLoss (vkaStays : Bool) (s : State) : Host.Outcome State Fault Refusal :=
  happen s (given s.supplies.main (mainLoss vkaStays s))

end Sys2Proof.Machine
end

