-- ==== Sys2Proof/Machine/Catalogue.lean ====
section
/-! DEFINITION. The commands of the Title Catalogue and of write-back (chapters 1 and 2): lookups, reads, changes,
FLUSH_CATALOGUE, WRITE_BACK_DELAY_EXPIRY, SECTOR_WRITE_END and TITLE_READ_PIECE_END. -/

namespace Sys2Proof.Machine

/-! ### Lookups -/

/-- FIND TITLE (R11). -/
def findTitleOwn (f : Frame) (_id : Nat) (s : State) : Verdict :=
  let key : TitleKey := BitVec.ofNat 64 (field (Frame.body f) 0 8)
  if key = 0 then .refuse .notFound
  else
    match s.findKey key with
    | none => .refuse .notFound
    | some h => .answered .ok (item2 h ++ item1 (s.recordAt h).state.toNat ++ revisionItem h s)

/-- FIND_TITLE. -/
def execFindTitle (f : Frame) (s : State) : Host.Outcome State Fault Refusal :=
  hostRequest .findTitle f (findTitleOwn f) s

/-- An item that a reply may report as absent, as its bytes. -/
def presentItem (width : Nat) (v : Option (List Byte)) : List Byte :=
  match v with
  | none => item1 0 ++ List.replicate width 0
  | some b => item1 1 ++ b

/-- The fields of a record in the order of section 1.1 (R12); every field but handle, state and revision is absent for
an EMPTY record. DESIGN CHOICE (log 75): the list of extents, which R204 gives no width while it is absent, is then a
presence byte of 0 and the two bytes 0 of an entry count. -/
def recordPayload (h : Nat) (r : TitleRecord) : List Byte :=
  let live := fun (b : List Byte) => if r.state = .empty then none else some b
  item2 h ++ item1 r.state.toNat ++ presentItem 8 (live (leBytes 8 r.key.toNat)) ++ item2 r.revision.toNat
    ++ itemOption 4 (if r.state = .empty then none else r.declaredLength)
    ++ itemOption 4 (if r.state = .empty then none else r.titleCheck.map BitVec.toNat)
    ++ presentItem 2 (live (itemList (r.extents.map fun e => item2 e.start ++ item2 e.count)))
    ++ presentItem 2 (live (item2 r.position)) ++ presentItem 1 (live (item1 r.generation))
    ++ presentItem 1 (live (item1 r.tag)) ++ itemOption 4 (if r.state = .empty then none else r.expiry)
    ++ presentItem 1 (live (item1 r.fetch.toNat)) ++ presentItem 1 (live (item1 r.holds))
    ++ presentItem 1 (live (itemFlag r.dirty))

/-- READ TITLE RECORD (R12). -/
def readTitleRecordOwn (f : Frame) (_id : Nat) (s : State) : Verdict :=
  let h := field (Frame.body f) 0 2
  if validHandle h then .answered .ok (recordPayload h (s.recordAt h)) else .refuse .badHandle

/-- READ_TITLE_RECORD. -/
def execReadTitleRecord (f : Frame) (s : State) : Host.Outcome State Fault Refusal :=
  hostRequest .readTitleRecord f (readTitleRecordOwn f) s

/-- LIST TITLES takes a record (R13). -/
def State.listed (s : State) (filter : Option Nat) (h : Nat) : Bool :=
  (s.recordAt h).state != .empty && filter.all fun tag => (s.recordAt h).tag == tag

/-- The summary of a record (R13). -/
def summaryItem (h : Nat) (r : TitleRecord) : List Byte :=
  item2 h ++ item1 r.state.toNat ++ leBytes 8 r.key.toNat ++ item2 r.revision.toNat

/-- LIST TITLES (R13). A malformed presence byte is refused before the start handle is looked at (log 42). -/
def listTitlesOwn (f : Frame) (_id : Nat) (s : State) : Verdict :=
  let start := field (Frame.body f) 0 2
  match optionField (Frame.body f) 2 1 with
  | none => .refuse .outOfRange
  | some filter =>
    if validHandle start then
      let found := (handles.drop (start - 1)).filter (s.listed filter)
      let taken := found.take 32
      let next := if taken.length = 32 then (match taken.getLast? with
        | some h => if h < 1024 then h + 1 else 0
        | none => 0) else 0
      .answered .ok (itemList (taken.map fun h => summaryItem h (s.recordAt h)) ++ item2 next)
    else .refuse .badHandle

/-- LIST_TITLES. -/
def execListTitles (f : Frame) (s : State) : Host.Outcome State Fault Refusal :=
  hostRequest .listTitles f (listTitlesOwn f) s

/-- The pieces of a read: offset and length, cut at every 4096-byte boundary (R14). -/
def pieces : Nat → Nat → Nat → List (Nat × Nat)
  | 0, _, _ => []
  | fuel + 1, offset, length =>
    if length = 0 then []
    else
      let n := min length (4096 - offset % 4096)
      (offset, n) :: pieces fuel (offset + n) (length - n)

/-- READ TITLE BYTES (R14). -/
def readTitleBytesOwn (f : Frame) (id : Nat) (s : State) : Verdict :=
  let h := field (Frame.body f) 0 2
  let offset := field (Frame.body f) 2 4
  let length := field (Frame.body f) 6 2
  let r := s.recordAt h
  if !validHandle h then .refuse .badHandle
  else if r.state = .expired then .refuse .expired
  else if r.state ≠ .ready then .refuse .wrongState
  else if length < 1 ∨ 16384 < length ∨ r.declaredLength.getD 0 < offset + length then .refuse .outOfRange
  else
    let ps := pieces 5 offset length
    let t := ps.foldl
      (fun u p => placeOp 2 false (.titleRead id (titleAddress r.extents p.1) p.2) u) s
    .acted { t with cat.reads := t.cat.reads ++ [⟨id, h, false, ps.length, []⟩] }

/-- READ_TITLE_BYTES. -/
def execReadTitleBytes (f : Frame) (s : State) : Host.Outcome State Fault Refusal :=
  hostRequest .readTitleBytes f (readTitleBytesOwn f) s

/-- A piece of a title read has ended; the last one answers the read (R14). -/
def titlePieceEnd (request address length : Nat) (s : State) : State :=
  match s.cat.reads.find? fun r => r.request == request with
  | none => s
  | some r =>
    let got := r.bytes ++ s.flash.bytes address length
    if r.piecesLeft ≤ 1 then
      answer request .ok got { s with cat.reads := s.cat.reads.filter fun q => q.request != request }
    else
      { s with
        cat.reads := s.cat.reads.map fun q =>
          if q.request = request then { q with piecesLeft := q.piecesLeft - 1, bytes := got } else q }

/-- TITLE_READ_PIECE_END. -/
def execTitleReadPieceEnd (s : State) : Host.Outcome State Fault Refusal :=
  happen s
    (match s.running with
    | some (.titleRead request address length) =>
      given s.powered (titlePieceEnd request address length (endOperation s))
    | _ => none)

/-! ### Changes (R4) -/

/-- SET POSITION (R16). -/
def setPositionOwn (f : Frame) (id : Nat) (s : State) : Verdict :=
  let h := field (Frame.body f) 0 2
  let page := field (Frame.body f) 2 2
  (changeChecks f liveOnly noLimit s).getD
    (.done id .ok (revisionItem h) (editRecord h (fun p => { p with position := page }) s))

/-- SET_POSITION. -/
def execSetPosition (f : Frame) (s : State) : Host.Outcome State Fault Refusal :=
  hostRequest .setPosition f (setPositionOwn f) s

/-- SET TAG (R17). -/
def setTagOwn (f : Frame) (id : Nat) (s : State) : Verdict :=
  let h := field (Frame.body f) 0 2
  let tag := field (Frame.body f) 2 1
  (changeChecks f liveOnly noLimit s).getD
    (.done id .ok (revisionItem h) (editRecord h (fun p => { p with tag := tag }) s))

/-- SET_TAG. -/
def execSetTag (f : Frame) (s : State) : Host.Outcome State Fault Refusal :=
  hostRequest .setTag f (setTagOwn f) s

/-- The effect of SET LAYOUT GENERATION (R18, R87). -/
def setGeneration (h generation : Nat) (s : State) : State :=
  if (s.recordAt h).generation = generation then s
  else
    let t := changeRecord h (fun p => { p with generation := generation }) s
    freeSlots (t.invalidated h fun g => g != generation) t

/-- SET LAYOUT GENERATION (R18). -/
def setLayoutGenerationOwn (f : Frame) (id : Nat) (s : State) : Verdict :=
  let h := field (Frame.body f) 0 2
  (changeChecks f liveOnly noLimit s).getD
    (.done id .ok (revisionItem h) (setGeneration h (field (Frame.body f) 2 1) s))

/-- SET_LAYOUT_GENERATION. -/
def execSetLayoutGeneration (f : Frame) (s : State) : Host.Outcome State Fault Refusal :=
  hostRequest .setLayoutGeneration f (setLayoutGenerationOwn f) s

/-- The new expiry is present, due and time is valid (R19). -/
def State.expiryDue (s : State) (expiry : Option Nat) : Bool :=
  match expiry with
  | none => false
  | some e => s.keep.valid && decide (e ≤ s.keep.seconds)

/-- The effect of SET EXPIRY (R19, R26, R28). -/
def setExpiry (h : Nat) (expiry : Option Nat) (s : State) : State :=
  let r := s.recordAt h
  if r.state = .expired then
    if s.expiryDue expiry then editRecord h (fun p => { p with expiry := expiry }) s
    else
      placeExpiry h (editRecord h
        (fun p => { p with
          expiry := expiry
          state := if p.fetch = .done then .ready else .incomplete }) s)
  else
    processExpiries (placeExpiry h (editRecord h (fun p => { p with expiry := expiry }) s))

/-- SET EXPIRY (R19). A malformed presence byte is refused before R4's checks, without the revision (log 41). -/
def setExpiryOwn (f : Frame) (id : Nat) (s : State) : Verdict :=
  let h := field (Frame.body f) 0 2
  match optionField (Frame.body f) 2 4 with
  | none => .refuse .outOfRange
  | some expiry =>
    (changeChecks f liveOnly noLimit s).getD (.done id .ok (revisionItem h) (setExpiry h expiry s))

/-- SET_EXPIRY. -/
def execSetExpiry (f : Frame) (s : State) : Host.Outcome State Fault Refusal :=
  hostRequest .setExpiry f (setExpiryOwn f) s

/-- The hold count and the revision (R20, R21). -/
def holdItems (h : Nat) (s : State) : List Byte := item1 (s.recordAt h).holds ++ revisionItem h s

/-- The states in which a hold is taken (R20). -/
def holdStates : TitleState → Option Result
  | .ready => none
  | .expired => some .expired
  | _ => some .wrongState

/-- The limit of holds (R20). -/
def holdLimit (r : TitleRecord) : Option Result := if 15 ≤ r.holds then some .holdLimit else none

/-- HOLD TITLE (R20). -/
def holdTitleOwn (f : Frame) (id : Nat) (s : State) : Verdict :=
  let h := field (Frame.body f) 0 2
  (changeChecks f holdStates holdLimit s).getD
    (.done id .ok (holdItems h) (setHolds h ((s.recordAt h).holds + 1) s))

/-- HOLD_TITLE. -/
def execHoldTitle (f : Frame) (s : State) : Host.Outcome State Fault Refusal :=
  hostRequest .holdTitle f (holdTitleOwn f) s

/-- No hold is free to release (R21). -/
def notHeld (current : Bool) (r : TitleRecord) : Option Result :=
  if r.holds = 0 ∨ (r.holds = 1 ∧ current = true) then some .notHeld else none

/-- RELEASE TITLE (R21). The reply carries the hold count and the revision at the end of the event. -/
def releaseTitleOwn (f : Frame) (id : Nat) (s : State) : Verdict :=
  let h := field (Frame.body f) 0 2
  (changeChecks f (fun _ => none) (notHeld (s.turn.title == h)) s).getD
    (.done id .ok (holdItems h) (holdsGone h (setHolds h ((s.recordAt h).holds - 1) s)))

/-- RELEASE_TITLE. -/
def execReleaseTitle (f : Frame) (s : State) : Host.Outcome State Fault Refusal :=
  hostRequest .releaseTitle f (releaseTitleOwn f) s

/-- RETIRE TITLE (R22): the reply carries the revision at the end of the event, and no item for the state (log 43). -/
def retireTitleOwn (f : Frame) (id : Nat) (s : State) : Verdict :=
  let h := field (Frame.body f) 0 2
  (changeChecks f liveOnly noLimit s).getD (.done id .ok (revisionItem h) (retire h s))

/-- RETIRE_TITLE. -/
def execRetireTitle (f : Frame) (s : State) : Host.Outcome State Fault Refusal :=
  hostRequest .retireTitle f (retireTitleOwn f) s

/-! ### Write-back -/

/-- FLUSH CATALOGUE (R48): answered when the flush ends. -/
def flushCatalogueOwn (id : Nat) (s : State) : Verdict := .acted (demandFlush (.host id) s)

/-- FLUSH_CATALOGUE. -/
def execFlushCatalogue (f : Frame) (s : State) : Host.Outcome State Fault Refusal :=
  hostRequest .flushCatalogue f flushCatalogueOwn s

/-- The elapsed count has reached the age at which the head is due (R40, R42; log 9). -/
def headAged (s : State) : State :=
  match s.wb.queue with
  | [] => s
  | head :: _ => { s with wb.elapsed := max s.wb.elapsed (head.created + s.settings.writeBackDelay * 1000) }

/-- WRITE_BACK_DELAY_EXPIRY: the unload, if one is due, stands in the end of the event. -/
def execWriteBackDelayExpiry (s : State) : Host.Outcome State Fault Refusal :=
  happen s (given (s.powered && s.power.state != .bringup && !s.wb.queue.isEmpty) (headAged s))

/-- The sector write in flight has ended (R38, R44, R45). -/
def sectorWriteEnd (success : Bool) (sector : Nat) (snapshot : List Persisted) (s : State) : State :=
  match s.wb.inFlight with
  | none => s
  | some w =>
    if success then writeSucceeded w (storeSector sector snapshot s) else writeFailed w (spoilSector sector snapshot s)

/-- SECTOR_WRITE_END. -/
def execSectorWriteEnd (success : Bool) (s : State) : Host.Outcome State Fault Refusal :=
  happen s
    (match s.running with
    | some (.sectorWrite sector _ snapshot) =>
      given s.powered (sectorWriteEnd success sector snapshot (endOperation s))
    | _ => none)

end Sys2Proof.Machine
end

