-- ==== Sys2Proof/Machine/Download.lean ====
section
/-! DEFINITION. The commands of the Download Engine (chapter 3) and of the radio link (R59 to R62, R203). -/

namespace Sys2Proof.Machine

/-! ### Starting, restarting, cancelling, reading -/

/-- The record that START DOWNLOAD fills (R8); its revision is the one it had. -/
def startedRecord (key : TitleKey) (length : Nat) (check : Crc32) (extents : List Extent) (expiry : Option Nat)
    (tag : Nat) (p : Persisted) : Persisted :=
  { state := .fetching
    key := key
    revision := p.revision
    declaredLength := some length
    titleCheck := some check
    extents := extents
    position := 0
    generation := 0
    tag := tag
    expiry := expiry
    fetch := .noResult }

/-- The lowest EMPTY record (R8). -/
def State.emptyHandle (s : State) : Option Nat := handles.find? fun h => (s.recordAt h).state == .empty

/-- The items of the reply to START DOWNLOAD (R55). -/
def startedItems (h tag : Nat) (s : State) : List Byte :=
  item2 h ++ item1 tag ++ revisionItem h s ++ item1 (s.recordAt h).state.toNat

/-- START DOWNLOAD (R55, R8). A malformed presence byte is refused before R55's checks (log 54). The reply shows the state and the revision at the end of the event: EMPTY where retirement on
expiry retires the title at once (log 44). -/
def startDownloadOwn (f : Frame) (id : Nat) (s : State) : Verdict :=
  let b := Frame.body f
  let key : TitleKey := BitVec.ofNat 64 (field b 0 8)
  let length := field b 8 4
  let check : Crc32 := BitVec.ofNat 32 (field b 12 4)
  match optionField b 16 4, optionField b 21 1 with
  | some expiry, some tag =>
    if key = 0 ∨ length < 1 ∨ 67108864 < length then .refuse .outOfRange
    else if (s.findKey key).isSome then .refuse .duplicateKey
    else
      match s.emptyHandle with
      | none => .refuse .noHandle
      | some h =>
        match s.freeTransfer with
        | none => .refuse .noTransferSlot
        | some i =>
          match allocate (blocksFor length) s.blocks.conditions with
          | .error r => .refuse r
          | .ok extents =>
            let t := openTransfer i h length
              (changeRecord h (startedRecord key length check extents expiry (tag.getD 0))
                (setHolds h 0 (ownExtents h extents s)))
            let given := t.dl.slots[i].tag
            .done id .ok (startedItems h given) (processExpiries (placeExpiry h t))
  | _, _ => .refuse .outOfRange

/-- START_DOWNLOAD. -/
def execStartDownload (f : Frame) (s : State) : Host.Outcome State Fault Refusal :=
  hostRequest .startDownload f (startDownloadOwn f) s

/-- RESTART DOWNLOAD (R56, R9). -/
def restartDownloadOwn (f : Frame) (id : Nat) (s : State) : Verdict :=
  let h := field (Frame.body f) 0 2
  let r := s.recordAt h
  let length := r.declaredLength.getD 0
  if !validHandle h then .refuse .badHandle
  else if r.state ≠ .incomplete then .refuse .wrongState
  else if extentBlocks r.extents ≠ blocksFor length then .refuse .outOfRange
  else
    match s.freeTransfer with
    | none => .refuse .noTransferSlot
    | some i =>
      let t := openTransfer i h length (changeRecord h (fun p => { p with state := .fetching, fetch := .noResult }) s)
      .done id .ok (fun u => item2 h ++ item1 t.dl.slots[i].tag ++ revisionItem h u) (placeExpiry h t)

/-- RESTART_DOWNLOAD. -/
def execRestartDownload (f : Frame) (s : State) : Host.Outcome State Fault Refusal :=
  hostRequest .restartDownload f (restartDownloadOwn f) s

/-- CANCEL DOWNLOAD (R57, R9). -/
def cancelDownloadOwn (f : Frame) (id : Nat) (s : State) : Verdict :=
  let h := field (Frame.body f) 0 2
  if !validHandle h then .refuse .badHandle
  else if (s.recordAt h).state ≠ .fetching then .refuse .wrongState
  else
    let t : State :=
      match s.slotOf h with
      | some i => endTransfer i s
      | none => s
    .done id .ok (revisionItem h) (fetchEnded h .incomplete .cancelled t)

/-- CANCEL_DOWNLOAD. -/
def execCancelDownload (f : Frame) (s : State) : Host.Outcome State Fault Refusal :=
  hostRequest .cancelDownload f (cancelDownloadOwn f) s

/-- Number of received marks. -/
def TransferSlot.receivedCount (t : TransferSlot) : Nat := (t.received.filter id).length

/-- The first missing index: the lowest neither received nor pending, else the segment count (R58). -/
def TransferSlot.firstMissing (t : TransferSlot) : Nat :=
  ((t.received.zipIdx.find? fun p => !p.1 && !t.pending.contains p.2).map (·.2)).getD t.received.length

/-- Whole seconds left of an inactivity deadline, rounded up (R58). -/
def Deadline.seconds : Deadline → Option Nat
  | .absent => none
  | .running n | .paused n => some ((n + 999) / 1000)

/-- The items of READ TRANSFER (R58). -/
def transferItems (t : TransferSlot) : List Byte :=
  item1 t.state.toNat ++ item1 t.tag ++ item2 t.received.length ++ item2 t.receivedCount
    ++ item1 t.pending.length ++ item2 t.firstMissing ++ item2 (t.erased.filter id).length ++ item2 t.erased.length
    ++ itemOption 2 t.deadline.seconds ++ itemOption 4 (t.verification.map (·.offset))

/-- READ TRANSFER (R58). -/
def readTransferOwn (f : Frame) (_id : Nat) (s : State) : Verdict :=
  let h := field (Frame.body f) 0 2
  if !validHandle h then .refuse .badHandle
  else
    match s.slotOf h with
    | none => .refuse .wrongState
    | some i => .answered .ok (transferItems s.dl.slots[i])

/-- READ_TRANSFER. -/
def execReadTransfer (f : Frame) (s : State) : Host.Outcome State Fault Refusal :=
  hostRequest .readTransfer f (readTransferOwn f) s

/-! ### The radio link -/

/-- A radio status that uses the code, the tag, the index and the free buffers. -/
def plainRadio (code : RadioCode) (r : RadioFrame) (s : State) : RadioStatus :=
  ⟨code, r.tag, r.index, s.freeBuffers, 0, 0, 0, 0⟩

/-- A radio status that adds the slot's state, received count and first missing index. -/
def slotRadio (code : RadioCode) (r : RadioFrame) (t : TransferSlot) (missing : Nat) (s : State) : RadioStatus :=
  ⟨code, r.tag, r.index, s.freeBuffers, t.state.toNat, t.receivedCount, t.firstMissing, missing⟩

/-- The length of segment `i` of a declared length (section 3.1). -/
def segmentLength (length i : Nat) : Nat := min 16384 (length - 16384 * i)

/-- The refusal of a segment frame, and otherwise the slot that takes it (R59). -/
def segmentChecks (r : RadioFrame) (s : State) : Except RadioCode (Fin 4) :=
  if !(r.payload.length == r.length.toNat && RadioFrame.checkGood r) then .error .badCheck
  else
    match s.slotTagged r.tag.toNat with
    | none => .error .noTransfer
    | some i =>
      let t : TransferSlot := s.dl.slots[i]
      let n := r.index.toNat
      if t.state = .suspended then .error .suspended
      else if t.received.length ≤ n then .error .outOfRange
      else if r.payload.length ≠ segmentLength ((s.recordAt t.handle).declaredLength.getD 0) n then .error .badLength
      else if t.received.getD n false || t.pending.contains n then .error .duplicate
      else if s.freeBuffers = 0 then .error .noBuffer
      else .ok i

/-- The flash block at a block position of a record (R60). -/
def State.blockOf (s : State) (h position : Nat) : Nat := (blockAt (s.recordAt h).extents position).getD 0

/-- Places the program of a buffered segment (R60, R64). -/
def placeProgram (b : Fin 4) (t : TransferSlot) (g : Segment) (s : State) : State :=
  placeOp 3 s.dl.suspended
    (.program t.xfer t.handle g.index (s.blockOf t.handle (g.index / 4) * 65536 + 16384 * (g.index % 4)) b)
    (setBuffer b (some { g with mark := .atPort }) s)

/-- The lowest-numbered free buffer. -/
def State.freeBuffer (s : State) : Option (Fin 4) := fourIds.find? fun b => s.dl.buffers[b].isNone

/-- An accepted segment is taken (R60, R74). -/
def takeSegment (i : Fin 4) (r : RadioFrame) (s : State) : State :=
  match s.freeBuffer with
  | none => s
  | some b =>
    let t : TransferSlot := s.dl.slots[i]
    let n := r.index.toNat
    let p := n / 4
    let g : Segment := ⟨t.xfer, t.tag, n, r.payload, .awaitingErase, s.dl.nextAccept⟩
    let erased := t.erased.getD p false
    let placeErase := !erased && !t.erasing.contains p
    let t' : TransferSlot :=
      { t with
        pending := t.pending ++ [n]
        erasing := if placeErase then t.erasing ++ [p] else t.erasing }
    let s1 := setBuffer b (some g) (setTransfer i t' s)
    let s2 := raiseDownloadBoost { s1 with dl.nextAccept := s.dl.nextAccept + 1 }
    if erased then placeProgram b t' g s2
    else if placeErase then placeOp 3 s.dl.suspended (.erase t.xfer t.handle p (s.blockOf t.handle p)) s2
    else s2

/-- SEGMENT_FRAME (R59, R60). -/
def execSegmentFrame (r : RadioFrame) (s : State) : Host.Outcome State Fault Refusal :=
  if s.powered then
    match segmentChecks r s with
    | .error code => .next { s with radio := plainRadio code r s }
    | .ok i =>
      let t := takeSegment i r s
      .next (conclude { t with radio := plainRadio .accepted r t })
  else .next s

/-- The frame check of QUERY TRANSFER and END OF STREAM: index and length are 0, and the check is correct (R61, R62, R203).
DESIGN CHOICE (log 65): a frame whose length is 0 and that carries payload bytes all the same does not pass it. -/
def queryGood (r : RadioFrame) : Bool :=
  r.index == 0 && r.length == 0 && r.payload.isEmpty && RadioFrame.checkGood r

/-- The status of QUERY TRANSFER (R61). -/
def queryStatus (r : RadioFrame) (s : State) : RadioStatus :=
  if queryGood r then
    match s.slotTagged r.tag.toNat with
    | none => plainRadio .noTransfer r s
    | some i => slotRadio .accepted r s.dl.slots[i] 0 s
  else plainRadio .badCheck r s

/-- QUERY_TRANSFER. -/
def execQueryTransfer (r : RadioFrame) (s : State) : Host.Outcome State Fault Refusal :=
  .next (if s.powered then { s with radio := queryStatus r s } else s)

/-- Every received mark is set. -/
def TransferSlot.full (t : TransferSlot) : Bool := t.received.all id

/-- The status of END OF STREAM (R62). -/
def streamStatus (r : RadioFrame) (s : State) : RadioStatus :=
  if queryGood r then
    match s.slotTagged r.tag.toNat with
    | none => plainRadio .noTransfer r s
    | some i =>
      let t : TransferSlot := s.dl.slots[i]
      if t.state = .verifying ∨ t.full = true then plainRadio .ended r s
      else
        ⟨.missing, r.tag, r.index, s.freeBuffers, 0, 0, t.firstMissing, t.received.length - t.receivedCount⟩
  else plainRadio .badCheck r s

/-- END_OF_STREAM. -/
def execEndOfStream (r : RadioFrame) (s : State) : Host.Outcome State Fault Refusal :=
  .next (if s.powered then { s with radio := streamStatus r s } else s)

/-- RADIO_STATUS_READ (R203): the status is read and stays. -/
def execRadioStatusRead (s : State) : Host.Outcome State Fault Refusal := .next s

/-- BAD_RADIO_FRAME (R203): an unknown kind, or fewer than 10 bytes; the tag and index are those clocked. -/
def badRadioStatus (bytes : List Byte) (s : State) : RadioStatus :=
  ⟨.badCheck, bytes.getD 1 0, BitVec.ofNat 16 (field bytes 2 2), s.freeBuffers, 0, 0, 0, 0⟩

/-- BAD_RADIO_FRAME. -/
def execBadRadioFrame (bytes : List Byte) (s : State) : Host.Outcome State Fault Refusal :=
  .next (if s.powered then { s with radio := badRadioStatus bytes s } else s)

/-! ### Erasing and programming -/

/-- The order of acceptance of a buffer's segment. -/
def State.orderOf (s : State) (b : Fin 4) : Nat := (s.dl.buffers[b].map fun g => g.order).getD 0

/-- Inserts a buffer by order of acceptance. -/
def State.insertByOrder (s : State) (b : Fin 4) : List (Fin 4) → List (Fin 4)
  | [] => [b]
  | c :: rest => if s.orderOf b < s.orderOf c then b :: c :: rest else c :: s.insertByOrder b rest

/-- The buffers of a transfer that wait for the erase of a block position, in order of acceptance (R64). -/
def State.awaitingErase (s : State) (xfer position : Nat) : List (Fin 4) :=
  let waits := fourIds.filter fun b =>
    match s.dl.buffers[b] with
    | some g => g.xfer == xfer && g.index / 4 == position && g.mark == .awaitingErase
    | none => false
  waits.foldl (fun sorted b => s.insertByOrder b sorted) []

/-- A block erase of a running transfer has ended with success (R64). -/
def eraseDone (i : Fin 4) (position : Nat) (s : State) : State :=
  let t : TransferSlot := s.dl.slots[i]
  let t' : TransferSlot :=
    { t with
      erasing := t.erasing.filter fun p => decide (p ≠ position)
      erased := t.erased.set position true }
  let u := setTransfer i t' s
  (u.awaitingErase t.xfer position).foldl
    (fun v b => match v.dl.buffers[b] with
      | some g => placeProgram b t' g v
      | none => v) u

/-- A SEGMENT_WRITE fault is reported (R66). -/
def segmentFault (handle : Nat) (s : State) : State := reportFault .segmentWrite (some handle) s

/-- A block erase has ended (R64, R66). -/
def eraseEnd (success : Bool) (xfer handle position block : Nat) (s : State) : State :=
  let t := if success then eraseBlock block s else segmentFault handle (undefineUnits (blockUnits block) s)
  match t.slotHolding xfer with
  | none => t
  | some i => if success then eraseDone i position t else failTransfer i .flash t

/-- BLOCK_ERASE_END. -/
def execBlockEraseEnd (success : Bool) (s : State) : Host.Outcome State Fault Refusal :=
  happen s
    (match s.running with
    | some (.erase xfer handle position block) =>
      given s.powered (eraseEnd success xfer handle position block (endOperation s))
    | _ => none)

/-- The verification read at an offset is placed (R67). -/
def placeVerify (i : Fin 4) (offset : Nat) (s : State) : State :=
  let t : TransferSlot := s.dl.slots[i]
  let r := s.recordAt t.handle
  placeOp 5 s.dl.suspended
    (.verifyRead t.xfer (titleAddress r.extents offset) (min 4096 (r.declaredLength.getD 0 - offset))) s

/-- A slot enters VERIFYING (R67). -/
def beginVerify (i : Fin 4) (s : State) : State :=
  let t : TransferSlot := s.dl.slots[i]
  placeVerify i 0
    (setTransfer i { t with state := .verifying, deadline := .absent, verification := some ⟨0, crc32Start⟩ } s)

/-- The deadline after a successful program (R65). -/
def restartDeadline (ms : Nat) : Deadline → Deadline
  | .paused _ => .paused ms
  | _ => .running ms

/-- A segment program of a running transfer has ended with success (R65). -/
def programDone (i : Fin 4) (index : Nat) (s : State) : State :=
  let t : TransferSlot := s.dl.slots[i]
  let t' : TransferSlot :=
    { t with
      received := t.received.set index true
      pending := t.pending.filter fun n => decide (n ≠ index)
      deadline := restartDeadline s.inactivityMs t.deadline }
  let u := setTransfer i t' s
  if t'.full then beginVerify i u else u

/-- The buffer of an ended program is freed. -/
def freeProgrammed (xfer : Nat) (b : Fin 4) (s : State) : State :=
  match s.dl.buffers[b] with
  | some g => if g.xfer = xfer then setBuffer b none s else s
  | none => s

/-- The payload of the buffer being programmed. -/
def State.bufferPayload (s : State) (b : Fin 4) : List Byte := (s.dl.buffers[b].map (·.payload)).getD []

/-- A segment program has ended (R65, R66, R70). -/
def programEnd (success : Bool) (xfer handle index address : Nat) (b : Fin 4) (s : State) : State :=
  let written :=
    if success then programSegment address (s.bufferPayload b) s
    else segmentFault handle (undefineUnits [address / 16384] s)
  let t := freeProgrammed xfer b written
  match t.slotHolding xfer with
  | none => t
  | some i => if success then programDone i index t else failTransfer i .flash t

/-- SEGMENT_PROGRAM_END. -/
def execSegmentProgramEnd (success : Bool) (s : State) : Host.Outcome State Fault Refusal :=
  happen s
    (match s.running with
    | some (.program xfer handle index address b) =>
      given s.powered (programEnd success xfer handle index address b (endOperation s))
    | _ => none)

/-! ### Verification and the inactivity deadline -/

/-- Verification has matched: the record becomes READY and the slot FREE (R68). -/
def verifyMatched (i : Fin 4) (s : State) : State :=
  let h := s.dl.slots[i].handle
  post .downloadDone (fetchEnded h .ready .done (endTransfer i s))

/-- A verification read has ended (R67, R68). -/
def verifyEnd (xfer address length : Nat) (s : State) : State :=
  match s.slotHolding xfer with
  | none => s
  | some i =>
    let t : TransferSlot := s.dl.slots[i]
    match t.verification with
    | none => s
    | some v =>
      let crc := crc32Feed v.crc (s.flash.bytes address length)
      let offset := v.offset + length
      let r := s.recordAt t.handle
      let u := setTransfer i { t with verification := some ⟨offset, crc⟩ } s
      if offset < r.declaredLength.getD 0 then placeVerify i offset u
      else if r.titleCheck = some (crc32Finish crc) then verifyMatched i u
      else failTransfer i .check u

/-- VERIFICATION_READ_END. -/
def execVerificationReadEnd (s : State) : Host.Outcome State Fault Refusal :=
  happen s
    (match s.running with
    | some (.verifyRead xfer address length) => given s.powered (verifyEnd xfer address length (endOperation s))
    | _ => none)

/-- INACTIVITY_DEADLINE_EXPIRY: a running deadline has reached zero (R69). -/
def execInactivityDeadlineExpiry (slot : Fin 4) (s : State) : Host.Outcome State Fault Refusal :=
  happen s (given (s.powered && s.dl.slots[slot].state == .receiving) (failTransfer slot .timeout s))

end Sys2Proof.Machine
end

