-- ==== Sys2Proof/Machine/Lighting.lean ====
section
/-! DEFINITION. The commands of the Light Engine (chapter 7): SET_LIGHT, READ_LIGHT, AMBIENT_SAMPLE, RAMP_STEP,
AUTO_DIM_EXPIRY and LIGHT_OFF_EXPIRY. -/

namespace Sys2Proof.Machine

/-- The items of READ LIGHT (R154). -/
def lightItems (s : State) : List Byte :=
  let l := s.light
  itemFlag l.switch ++ item1 l.level ++ item2 l.warmth ++ itemFlag l.auto ++ item2 l.average ++ item2 l.factor
    ++ itemFlag l.dimmed ++ itemFlag l.timedOff ++ itemFlag l.forcedDark ++ item1 l.maskCount ++ item2 s.bandCap
    ++ item1 l.allowance ++ item2 s.unclampedCodes.1 ++ item2 s.unclampedCodes.2 ++ item2 l.warmTarget
    ++ item2 l.coolTarget ++ item2 l.warmOutput ++ item2 l.coolOutput ++ item1 l.rampState.toNat
    ++ item1 s.power.lightClaim

/-- The record of section 7.1, field by field, as SET LIGHT answers it (R141; log 39). -/
def lightRecord (s : State) : List Byte :=
  let l := s.light
  itemFlag l.switch ++ item1 l.level ++ item2 l.warmth ++ itemFlag l.auto ++ l.history.flatMap item2 ++ item2 l.factor
    ++ itemFlag l.dimmed ++ itemFlag l.timedOff ++ itemFlag l.forcedDark ++ item1 l.maskCount ++ item2 s.bandCap
    ++ item1 l.allowance ++ item2 l.warmTarget ++ item2 l.coolTarget ++ item2 l.warmOutput ++ item2 l.coolOutput
    ++ item1 l.rampState.toNat ++ item1 s.power.lightClaim

/-- READ LIGHT (R154). -/
def readLightOwn (_id : Nat) (s : State) : Verdict := .answered .ok (lightItems s)

/-- READ_LIGHT. -/
def execReadLight (f : Frame) (s : State) : Host.Outcome State Fault Refusal := hostRequest .readLight f readLightOwn s

/-- A switch command (R141), coded by its position in the list ON, OFF, KEEP (R204). DESIGN CHOICE (log 68): R204 codes on as
1 elsewhere. -/
def switchAfter (command : Nat) (switch : Bool) : Bool :=
  if command = 0 then true else if command = 1 then false else switch

/-- The effect of SET LIGHT (R141). -/
def setLight (level warmth : Nat) (auto : Bool) (command : Nat) (s : State) : State :=
  lightFit (lightActivity
    { s with
      light.level := level
      light.warmth := warmth
      light.auto := auto
      light.switch := switchAfter command s.light.switch
      light.timedOff := false
      light.forcedDark := false })

/-- SET LIGHT (R141). -/
def setLightOwn (f : Frame) (id : Nat) (s : State) : Verdict :=
  let b := Frame.body f
  match flagField b 3 with
  | none => .refuse .outOfRange
  | some auto =>
    if 31 < field b 0 1 ∨ 32767 < field b 1 2 ∨ 2 < field b 4 1 then .refuse .outOfRange
    else .done id .ok lightRecord (setLight (field b 0 1) (field b 1 2) auto (field b 4 1) s)

/-- SET_LIGHT. -/
def execSetLight (f : Frame) (s : State) : Host.Outcome State Fault Refusal := hostRequest .setLight f (setLightOwn f) s

/-- The ambient sensor is sampled: the power state is ACTIVE or READING, and DORMANT entry has not taken its light step
(R142, R152). -/
def State.ambientOn (s : State) : Bool :=
  s.powered && (s.power.state == .active || s.power.state == .reading)
    && !(s.power.entry == some .dormant && s.power.step != some .lanes)

/-- AMBIENT_SAMPLE (R142). -/
def execAmbientSample (reading : Nat) (s : State) : Host.Outcome State Fault Refusal :=
  happen s (given s.ambientOn (takeAmbient reading s))

/-- RAMP_STEP: the ramp timer of a ramp expires (R146). -/
def execRampStep (s : State) : Host.Outcome State Fault Refusal :=
  happen s (given (s.powered && s.light.ramp.isRunning) (rampOnce s))

/-- AUTO_DIM_EXPIRY (R148). -/
def execAutoDimExpiry (s : State) : Host.Outcome State Fault Refusal :=
  happen s (given (s.powered && s.light.autoDim.isRunning) { s with light.dimmed := true, light.autoDim := .stopped })

/-- The light-off delay has run out; with the switch OFF nothing is set (R149). -/
def lightOff (s : State) : State :=
  { s with light.lightOff := .stopped, light.timedOff := s.light.timedOff || s.light.switch }

/-- LIGHT_OFF_EXPIRY (R149). -/
def execLightOffExpiry (s : State) : Host.Outcome State Fault Refusal :=
  happen s (given (s.powered && s.light.lightOff.isRunning) (lightOff s))

end Sys2Proof.Machine
end

