-- ==== Sys2Proof/Machine/Link.lean ====
section
/-! DEFINITION. The Host Link Port's own commands: SHORT_TRANSACTION, BAD_HEADER, UNKNOWN_REQUEST, REPLY_FETCHED and the
link requests STATUS, FETCH REPLY, ACK ATTENTION, RESET LINK and RESTART (chapter 11). -/

namespace Sys2Proof.Machine

/-- A transaction that brings no frame to its end (R192): after eight bytes that are no good header the part shifts out
FRAME_ERROR bytes, and else no status is given. -/
def noFrame (bytes : List Byte) (s : State) : State :=
  if s.powered then
    { beginTransaction s with
      link.out := if 8 ≤ bytes.length ∧ headerGood (bytes.take 8) = false then .frameErrors else .silent }
  else s

/-- SHORT_TRANSACTION (R192): the frame has no effect. -/
def execShortTransaction (bytes : List Byte) (s : State) : Host.Outcome State Fault Refusal := .next (noFrame bytes s)

/-- BAD_HEADER (R192): FRAME_ERROR bytes to the end of the transaction. -/
def execBadHeader (header : List Byte) (s : State) : Host.Outcome State Fault Refusal := .next (noFrame header s)

/-- UNKNOWN_REQUEST (R193): the frame check comes first. -/
def execUnknownRequest (code : Byte) (f : Frame) (s : State) : Host.Outcome State Fault Refusal :=
  .next
    (if s.powered then
      shiftOut (if Frame.crcGood code.toNat f && Frame.flagsGood f then .unknownRequest else .frameError) f.tag none
        (beginTransaction s)
    else s)

/-- A reason set on the wire. -/
def reasonItem (r : ReasonSet) : List Byte := item2 r.toNat

/-- The answer to STATUS (R198). -/
def statusPayload (s : State) : List Byte :=
  item1 s.power.state.toNat ++ item1 (entryCode s.power.entry)
    ++ reasonItem s.link.attention ++ reasonItem s.countedReasons
    ++ item1 s.link.replies.length ++ item1 s.link.outstanding.length ++ item1 s.turn.keyQueue.length
    ++ itemFlag s.faults.captured.isSome ++ itemFlag s.power.fromShelf ++ item2 0x0640 ++ item1 1

/-- STATUS changes nothing (R198). -/
def statusAct (f : Frame) (s : State) : State × Reply := (s, ⟨f.tag, some .status, .ok, statusPayload s⟩)

/-- STATUS. -/
def execStatus (f : Frame) (s : State) : Host.Outcome State Fault Refusal :=
  inlineRequest .status f (statusAct f) s

/-- The answer to FETCH REPLY (R197): the oldest reply, or the header of an empty fetch. -/
def fetchAnswer (s : State) : Reply := s.link.replies.head?.getD ⟨0, none, .ok, []⟩

/-- FETCH REPLY (R197): the reply stays at the head until it has been clocked out. -/
def fetchAct (s : State) : State × Reply :=
  ({ s with link.fetching := !s.link.replies.isEmpty }, fetchAnswer s)

/-- FETCH REPLY. -/
def execFetchReply (f : Frame) (s : State) : Host.Outcome State Fault Refusal :=
  inlineRequest .fetchReply f fetchAct s

/-- The fetched reply leaves the queue and its tag is freed (R197). -/
def replyLeaves (s : State) : State :=
  match s.link.replies with
  | [] => s
  | r :: rest =>
    { s with
      link.replies := rest
      link.outstanding := s.link.outstanding.filter fun o => !(o.tag == r.tag && o.replied)
      link.fetching := false }

/-- REPLY_FETCHED: the host has clocked out the last CRC byte of the reply (R197). -/
def execReplyFetched (s : State) : Host.Outcome State Fault Refusal :=
  .next (if s.powered && s.link.fetching then refreshPins (replyLeaves s) else s)

/-- The set that ACK ATTENTION removes: KEYS only while the host key queue is empty (R201). -/
def acknowledged (named : ReasonSet) (s : State) : ReasonSet :=
  if s.turn.keyQueue.isEmpty then named else named &&& ~~~Reason.keys.bit

/-- ACK ATTENTION (R201). A set that names more than the twelve reasons is outside what the request allows. -/
def ackAct (f : Frame) (s : State) : State × Reply :=
  let named := field f.payload 0 2
  if named < 4096 then
    let t := { s with link.attention := s.link.attention &&& ~~~(acknowledged (BitVec.ofNat 12 named) s) }
    (t, ⟨f.tag, some .ackAttention, .ok, reasonItem t.link.attention⟩)
  else (s, ⟨f.tag, some .ackAttention, .outOfRange, []⟩)

/-- ACK ATTENTION. -/
def execAckAttention (f : Frame) (s : State) : Host.Outcome State Fault Refusal :=
  inlineRequest .ackAttention f (ackAct f) s

/-- RESET LINK (R199): replies are discarded, requests in progress detached, and every tag freed. -/
def resetLinkAct (f : Frame) (s : State) : State × Reply :=
  ({ s with link.replies := [], link.outstanding := [] },
    ⟨f.tag, some .resetLink, .ok, item1 0 ++ item1 0⟩)

/-- RESET LINK. -/
def execResetLink (f : Frame) (s : State) : Host.Outcome State Fault Refusal :=
  inlineRequest .resetLink f (resetLinkAct f) s

/-- RESTART (R200): accepted and never answered. The part reset comes with the rise of CS_N: the command PART_RESET, the
next transaction, or a step on an empty queue (log 35). -/
def restartOwn (_id : Nat) (s : State) : Verdict := .acted { s with link.restart := true }

/-- RESTART. -/
def execRestart (f : Frame) (s : State) : Host.Outcome State Fault Refusal :=
  hostRequest .restart f restartOwn s

end Sys2Proof.Machine
end

