-- ==== Sys2Proof/Machine/Maintenance.lean ====
section
/-! DEFINITION. The commands of the fault record and of the stored settings (chapters 9 and 10): READ_FAULT,
CLEAR_FAULT, WRITE_SETTINGS, SETTINGS_WRITE_END, READ_SETTINGS, WRITE_WAVEFORMS and WAVEFORM_WRITE_END. -/

namespace Sys2Proof.Machine

/-! ### The fault record (chapter 9) -/

/-- The fields of the record in the order of section 9.1; kind, severity, location and stamp are absent while valid is
clear (R184, R185). DESIGN CHOICE (log 70): the location "none" of a captured PANEL_SUPPLY fault (R181) is sent as an absent
one, a presence byte of 0 and two bytes of 0. -/
def faultItems (r : FaultRecord) : List Byte :=
  itemFlag r.captured.isSome ++ itemOption 1 (r.captured.map fun c => c.kind.toNat)
    ++ itemOption 1 (r.captured.map fun c => if c.kind.severe then 0 else 1)
    ++ itemOption 2 (r.captured.bind fun c => c.location)
    ++ (match r.captured with
      | none => item1 0 ++ item4 0 ++ item1 0
      | some c => item1 1 ++ item4 c.seconds ++ itemFlag c.timeValid)
    ++ itemFlag r.further ++ itemFlag r.furtherSevere

/-- READ FAULT (R184). -/
def readFaultOwn (_id : Nat) (s : State) : Verdict :=
  .answered .ok (faultItems s.faults ++ itemFlag s.wb.halted ++ itemFlag s.panel.halted)

/-- READ_FAULT. -/
def execReadFault (f : Frame) (s : State) : Host.Outcome State Fault Refusal := hostRequest .readFault f readFaultOwn s

/-- CLEAR FAULT (R185, R46, R138): the unload and the choice of an entry stand in the end of the event. -/
def clearFaultOwn (id : Nat) (s : State) : Verdict :=
  .done id .ok (fun _ => faultItems s.faults)
    { s with faults := FaultRecord.empty, wb.halted := false, panel.halted := false }

/-- CLEAR_FAULT. -/
def execClearFault (f : Frame) (s : State) : Host.Outcome State Fault Refusal := hostRequest .clearFault f clearFaultOwn s

/-! ### Settings and waveforms (chapter 10) -/

/-- WRITE SETTINGS (R187). -/
def writeSettingsOwn (f : Frame) (id : Nat) (s : State) : Verdict :=
  let image := Frame.body f
  if settingsWellFormed image then .acted (placeOp 2 false (.settingsWrite id image) s) else .refuse .badImage

/-- WRITE_SETTINGS. -/
def execWriteSettings (f : Frame) (s : State) : Host.Outcome State Fault Refusal :=
  hostRequest .writeSettings f (writeSettingsOwn f) s

/-- A settings write has ended (R187). -/
def settingsWriteEnd (success : Bool) (request : Nat) (image : List Byte) (s : State) : State :=
  if success then
    answer request .ok [] (applySettings (formSettings (wordsOf image)) { s with flash.settings := image })
  else
    answer request .dataError []
      { s with
        flash.settings := imageAfter (Config.imageRemains s.freeCount) s.flash.settings image
        freeCount := s.freeCount + 1 }

/-- SETTINGS_WRITE_END. -/
def execSettingsWriteEnd (success : Bool) (s : State) : Host.Outcome State Fault Refusal :=
  happen s
    (match s.running with
    | some (.settingsWrite request image) => given s.powered (settingsWriteEnd success request image (endOperation s))
    | _ => none)

/-- READ SETTINGS (R188): the three further items, and the working image, which stands last as images do (R204). The flash
size is its code of 1 byte (log 59). -/
def readSettingsOwn (_id : Nat) (s : State) : Verdict :=
  .answered .ok (item1 s.blocks.size.toNat ++ itemFlag s.settingsGood ++ itemFlag s.waveform.builtin
    ++ workingImage s.settings s.storedSize)

/-- READ_SETTINGS. -/
def execReadSettings (f : Frame) (s : State) : Host.Outcome State Fault Refusal :=
  hostRequest .readSettings f readSettingsOwn s

/-- WRITE WAVEFORMS (R189). -/
def writeWaveformsOwn (f : Frame) (id : Nat) (s : State) : Verdict :=
  let image := Frame.body f
  if waveformValid image then .acted (placeOp 2 false (.waveformWrite id image) s) else .refuse .badImage

/-- WRITE_WAVEFORMS. -/
def execWriteWaveforms (f : Frame) (s : State) : Host.Outcome State Fault Refusal :=
  hostRequest .writeWaveforms f (writeWaveformsOwn f) s

/-- A waveform write has ended (R189). -/
def waveformWriteEnd (success : Bool) (request : Nat) (image : List Byte) (s : State) : State :=
  if success then
    answer request .ok [] { s with flash.waveform := image, waveform := waveformOf image }
  else
    answer request .dataError []
      { s with
        flash.waveform := imageAfter (Config.imageRemains s.freeCount) s.flash.waveform image
        freeCount := s.freeCount + 1 }

/-- WAVEFORM_WRITE_END. -/
def execWaveformWriteEnd (success : Bool) (s : State) : Host.Outcome State Fault Refusal :=
  happen s
    (match s.running with
    | some (.waveformWrite request image) => given s.powered (waveformWriteEnd success request image (endOperation s))
    | _ => none)

end Sys2Proof.Machine
end

