-- ==== Sys2Proof/Machine/Pages.lean ====
section
/-! DEFINITION. The commands of the page slots (chapter 4): CLAIM_SLOT, WRITE_PIXELS, COMPLETE_SLOT, FREE_SLOT,
READ_SLOTS, and the Turn Engine's events SHOW_SLOT, GIVE_UP_SHOWN_SLOT and TRAILING_RELEASE (R88). -/

namespace Sys2Proof.Machine

/-- Some slot in FILLING, READY or SHOWN has the identity (R79, R81). -/
def State.duplicatePage (s : State) (d : SlotIdentity) : Bool :=
  s.pm.slots.toList.any fun p => p.state != .free && p.identity == d

/-- The lowest-numbered FREE slot. -/
def State.freeSlotId (s : State) : Option (Fin 28) := slotIds.find? fun i => s.pm.slots[i].state == .free

/-- CLAIM SLOT (R81). A malformed fence byte is refused with check 2 (log 55). -/
def claimSlotOwn (f : Frame) (id : Nat) (s : State) : Verdict :=
  let b := Frame.body f
  let d : SlotIdentity := ⟨field b 0 2, field b 2 2, field b 4 1⟩
  let r := s.recordAt d.handle
  if !validHandle d.handle then .refuse .badHandle
  else
    match flagField b 5, hintField b 6 with
    | some fence, some hint =>
      if r.state ≠ .ready then .refuse .wrongState
      else if d.generation ≠ r.generation then .refuse .staleGeneration
      else if s.duplicatePage d then .refuse .duplicatePage
      else
        match s.freeSlotId with
        | none => .refuse .noSlot
        | some i =>
          .done id .ok (fun _ => item1 i.val ++ item1 (slotFrame i))
            (setSlot i ⟨.filling, d.handle, d.page, d.generation, fence, hint⟩ s)
    | _, _ => .refuse .outOfRange

/-- CLAIM_SLOT. -/
def execClaimSlot (f : Frame) (s : State) : Host.Outcome State Fault Refusal :=
  hostRequest .claimSlot f (claimSlotOwn f) s

/-- The slot of a frame is FILLING, or the frame is a compose frame (R82, check 4). -/
def State.writable (s : State) (frame : Nat) : Bool :=
  match frameSlot frame with
  | none => true
  | some i => s.pm.slots[i].state == .filling

/-- The identity that a write carries (R82). -/
def State.frameIdentity (s : State) (frame : Nat) : Option SlotIdentity :=
  (frameSlot frame).map fun i => s.pm.slots[i].identity

/-- WRITE PIXELS (R82, R83, R93). `flips` have arisen by its merge reads. -/
def writePixelsOwn (f : Frame) (flips : List WordFlip) (id : Nat) (s : State) : Verdict :=
  let b := Frame.body f
  let frame := field b 0 1
  let r := rectField b 1
  let pixels := b.drop 9
  if frame < 1 ∨ 31 < frame then .refuse .outOfRange
  else if !r.aligned then .refuse .misaligned
  else if !r.inside || decide (16384 < r.w * r.h / 2) then .refuse .outOfRange
  else if !s.writable frame then .refuse .slotState
  else if s.loadingFrom frame then
    .acted { addFlips flips s with pm.held := s.pm.held ++ [⟨id, frame, r, pixels, s.frameIdentity frame⟩] }
  else .acted (writePixelsNow id frame r pixels (addFlips flips s))

/-- WRITE_PIXELS. -/
def execWritePixels (f : Frame) (flips : List WordFlip) (s : State) : Host.Outcome State Fault Refusal :=
  hostRequest .writePixels f (writePixelsOwn f flips) s

/-- COMPLETE SLOT (R84, R107). -/
def completeSlotOwn (f : Frame) (id : Nat) (s : State) : Verdict :=
  let b := Frame.body f
  match slotNumber (field b 0 1) with
  | none => .refuse .outOfRange
  | some i =>
    let p : PageSlot := s.pm.slots[i]
    if p.state = .free ∨ p.identity ≠ ⟨field b 1 2, field b 3 2, field b 5 1⟩ then .refuse .sourceGone
    else if p.state = .filling then .ok id (reportAhead s (setSlot i { p with state := .ready } s))
    else .refuse .slotState

/-- COMPLETE_SLOT. -/
def execCompleteSlot (f : Frame) (s : State) : Host.Outcome State Fault Refusal :=
  hostRequest .completeSlot f (completeSlotOwn f) s

/-- FREE SLOT (R85). -/
def freeSlotOwn (f : Frame) (id : Nat) (s : State) : Verdict :=
  match slotNumber (field (Frame.body f) 0 1) with
  | none => .refuse .outOfRange
  | some i =>
    if s.pm.slots[i].state = .filling ∨ s.pm.slots[i].state = .ready then
      .ok id (reportAhead s (freeSlotNow false i s))
    else .refuse .slotState

/-- FREE_SLOT. -/
def execFreeSlot (f : Frame) (s : State) : Host.Outcome State Fault Refusal :=
  hostRequest .freeSlot f (freeSlotOwn f) s

/-- WRITE PIXELS held on a frame (R89). -/
def State.heldOn (s : State) (frame : Nat) : Nat := (s.pm.held.filter fun w => w.frame == frame).length

/-- The items of one slot in READ SLOTS (R89); the number of held writes is 1 byte (log 56). -/
def slotItems (s : State) (i : Fin 28) : List Byte :=
  let p : PageSlot := s.pm.slots[i]
  item1 i.val ++ item1 (slotFrame i) ++ item1 p.state.toNat ++ item2 p.handle ++ item2 p.page ++ item1 p.generation
    ++ itemFlag p.fence ++ item1 p.hint.toNat ++ item1 (s.heldOn (slotFrame i))

/-- The items of READ SLOTS (R89; log 56). -/
def readSlotsItems (s : State) : List Byte :=
  itemList (slotIds.map (slotItems s)) ++ item1 (s.heldOn 1) ++ item1 (s.heldOn 2) ++ item1 (s.heldOn 3)

/-- READ SLOTS (R89). -/
def readSlotsOwn (_id : Nat) (s : State) : Verdict := .answered .ok (readSlotsItems s)

/-- READ_SLOTS. -/
def execReadSlots (f : Frame) (s : State) : Host.Outcome State Fault Refusal := hostRequest .readSlots f readSlotsOwn s

/-! ### The Turn Engine's events (R88) -/

/-- The show finds its slot still READY: it has not been freed since the lookup (R88, R104; log 22). -/
def State.showStands (s : State) (t : TurnFlight) : Bool := s.pm.slots[t.slot].state == .ready && !t.lost

/-- The slot that is SHOWN, if any. -/
def State.shownSlot (s : State) : Option (Fin 28) := slotIds.find? fun i => s.pm.slots[i].state == .shown

/-- The mode that a hint asks for (R104). -/
def ModeHint.mode : ModeHint → Mode
  | .grey16 => .grey16
  | .clear => .clear

/-- The engine learns that a show has been made; a give-up that it has sent behind the show is then next for the slot (R79,
R88; log 21). -/
def noteShow (t : TurnFlight) (s : State) : State :=
  { s with
    turn.lastShow := if t.giveUp then none else some t.slot
    turn.giveUps := if t.giveUp then s.turn.giveUps ++ [t.slot] else s.turn.giveUps
    turn.flight := some { t with shown := true } }

/-- The show is made: the slot becomes SHOWN, the former one is given up, the boost is raised and the TURN update placed
(R88, R104). -/
def makeShow (t : TurnFlight) (s : State) : State :=
  let p : PageSlot := s.pm.slots[t.slot]
  let given : State :=
    match s.shownSlot with
    | some i => giveUpSlot i s
    | none => s
  let shown := setSlot t.slot { p with state := .shown } given
  placeTurnUpdate (slotFrame t.slot) p.hint.mode (raiseTurnBoost (noteShow t shown))

/-- SHOW_SLOT: the show that the turn in flight asks for. -/
def execShowSlot (s : State) : Host.Outcome State Fault Refusal :=
  happen s
    (match s.turn.flight with
    | some t =>
      given (s.powered && !t.shown) (reportAhead s (if s.showStands t then makeShow t s else showFailed s))
    | none => none)

/-- GIVE_UP_SHOWN_SLOT: the oldest give-up that the Turn Engine has sent. -/
def execGiveUpShownSlot (s : State) : Host.Outcome State Fault Refusal :=
  happen s
    (match s.turn.giveUps with
    | i :: rest => given s.powered (reportAhead s (giveUpSlot i { s with turn.giveUps := rest }))
    | [] => none)

/-- The READY slots among those that a trailing release names (R88). -/
def releaseReady (is : List (Fin 28)) (s : State) : State :=
  is.foldl (fun t i => if t.pm.slots[i].state = .ready then freeSlotNow false i t else t) s

/-- TRAILING_RELEASE: the oldest trailing release that the Turn Engine has sent. -/
def execTrailingRelease (s : State) : Host.Outcome State Fault Refusal :=
  happen s
    (match s.turn.trailing with
    | is :: rest => given s.powered (reportAhead s (releaseReady is { s with turn.trailing := rest }))
    | [] => none)

end Sys2Proof.Machine
end

