-- ==== Sys2Proof/Machine/PanelUpdates.lean ====
section
/-! DEFINITION. The commands of the Panel Drive Unit (chapter 6): UPDATE_REGION, CANCEL_UPDATES, the lane and supply
events, READ_PANEL and TEMPERATURE_SAMPLE. -/

namespace Sys2Proof.Machine

/-! ### Requests -/

/-- A source frame in 4..31 belongs to a READY or SHOWN slot (R117, check 4). -/
def State.sourceStands (s : State) (frame : Nat) : Bool :=
  match frameSlot frame with
  | none => true
  | some i => s.pm.slots[i].state == .ready || s.pm.slots[i].state == .shown

/-- An update asked for by the host. -/
structure UpdateAsked where
  source : Nat
  rect : Rect
  mode : Mode
  noPromote : Bool
  deriving DecidableEq, Repr

/-- The update that a payload asks for; none when a coded field or flag is outside its values (R117, check 1). -/
def askedUpdate (b : List Byte) : Option UpdateAsked :=
  match modeField b 9 with
  | none => none
  | some m =>
    if field b 10 1 < 2 ∧ 1 ≤ field b 0 1 ∧ field b 0 1 ≤ 31 then
      some ⟨field b 0 1, rectField b 1, m, field b 10 1 == 1⟩
    else none

/-- The request merges into the entry (R121). -/
def mergesInto (queue : List UpdateEntry) (u : UpdateAsked) (e : UpdateEntry) : Bool :=
  e.origin == .host && e.admission.isNone && e.source == u.source && e.mode == u.mode && e.noPromote == u.noPromote
    && (e.rect.overlaps u.rect || e.rect.sharesEdge u.rect) && decide (e.requesters.length < 4)
    && queue.all fun later => !(decide (e.order < later.order) && later.rect.overlaps u.rect)

/-- The oldest entry that the request merges into (R121). -/
def State.mergeTarget (s : State) (u : UpdateAsked) : Option UpdateEntry :=
  s.panel.queue.find? (mergesInto s.panel.queue u)

/-- The request joins an entry, whose rectangle grows (R121, R127). -/
def mergeUpdate (id : Nat) (u : UpdateAsked) (target : UpdateEntry) (s : State) : State :=
  withdrawOvertaken
    { s with
      panel.queue := s.panel.queue.map fun e =>
        if e.order = target.order then
          { e with rect := e.rect.bounding u.rect, requesters := e.requesters ++ [id] }
        else e }

/-- HOST entries queued (R120). -/
def State.hostEntries (s : State) : Nat := (s.panel.queue.filter fun e => e.origin == .host).length

/-- The request joins as a new entry (R120). -/
def joinUpdate (id : Nat) (u : UpdateAsked) (s : State) : State :=
  { s with
    panel.queue := s.panel.queue ++
      [⟨u.source, u.rect, u.mode, u.noPromote, .host, s.panel.nextOrder, [id], none⟩]
    panel.nextOrder := s.panel.nextOrder + 1 }

/-- UPDATE REGION (R117, R120, R121). -/
def updateRegionOwn (f : Frame) (id : Nat) (s : State) : Verdict :=
  match askedUpdate (Frame.body f) with
  | none => .refuse .outOfRange
  | some u =>
    if !u.rect.aligned then .refuse .misaligned
    else if !u.rect.inside then .refuse .outOfRange
    else if !s.sourceStands u.source then .refuse .slotState
    else if s.panel.halted then .refuse .panelFault
    else
      match s.mergeTarget u with
      | some e => .acted (mergeUpdate id u e s)
      | none => if 15 ≤ s.hostEntries then .refuse .queueFull else .acted (joinUpdate id u s)

/-- UPDATE_REGION. -/
def execUpdateRegion (f : Frame) (s : State) : Host.Outcome State Fault Refusal :=
  hostRequest .updateRegion f (updateRegionOwn f) s

/-- The request in progress that a tag names (R123). -/
def State.requestTagged (s : State) (tag : Nat) : Option Nat :=
  (s.link.outstanding.find? fun o => o.tag.val == tag && !o.replied).map (·.id)

/-- CANCEL UPDATES (R123). -/
def cancelUpdatesOwn (f : Frame) (id : Nat) (s : State) : Verdict :=
  let tag := field (Frame.body f) 0 1
  if 15 < tag then .refuse .outOfRange
  else
    match s.requestTagged tag with
    | none => .refuse .notFound
    | some named =>
      match s.panel.queue.find? fun e => e.requesters.contains named with
      | some e =>
        .done id .ok (fun _ => item1 e.requesters.length)
          (removeEntries (fun q => q.order == e.order) .cancelled s)
      | none =>
        if s.panel.lanes.toList.any fun l => l.state != .idle && l.requesters.contains named then .refuse .inDrive
        else .refuse .notFound

/-- CANCEL_UPDATES. -/
def execCancelUpdates (f : Frame) (s : State) : Host.Outcome State Fault Refusal :=
  hostRequest .cancelUpdates f (cancelUpdatesOwn f) s

/-! ### Lane and supply events -/

/-- LANE_LOAD_END (R133). -/
def execLaneLoadEnd (lane : Fin 4) (reads : LoadReads) (s : State) : Host.Outcome State Fault Refusal :=
  happen s (given (s.powered && s.panel.lanes[lane].state == .loading) (reportAhead s (endLoad lane reads s)))

/-- PANEL_SUPPLY_REGULATION (R134). -/
def execPanelSupplyRegulation (s : State) : Host.Outcome State Fault Refusal :=
  happen s (given (s.powered && s.panel.supply == .rising) (supplyOn s))

/-- PANEL_SUPPLY_FAILURE (R137, R138). -/
def execPanelSupplyFailure (s : State) : Host.Outcome State Fault Refusal :=
  happen s (given (s.powered && s.panel.supply == .rising) (supplyFailed s))

/-- OFF_DELAY_END (R134). -/
def execOffDelayEnd (s : State) : Host.Outcome State Fault Refusal :=
  happen s
    (given (s.powered && s.panel.offDelay.isRunning) { s with panel.supply := .off, panel.offDelay := .stopped })

/-- The lane's frame count has been driven: it settles (R132, R135). -/
def settleLane (i : Fin 4) (s : State) : State := setLane i { s.panel.lanes[i] with state := .settling } s

/-- DRIVE_END. -/
def execDriveEnd (lane : Fin 4) (s : State) : Host.Outcome State Fault Refusal :=
  happen s (given (s.powered && s.panel.lanes[lane].state == .driving) (settleLane lane s))

/-- LANE_COMPLETION (R135). -/
def execLaneCompletion (lane : Fin 4) (flips : List WordFlip) (s : State) : Host.Outcome State Fault Refusal :=
  happen s (given (s.powered && s.panel.lanes[lane].state == .settling) (completeLane lane flips s))

/-- TEMPERATURE_SAMPLE (R119): in every power state except SHELF. -/
def execTemperatureSample (temperature : Int) (s : State) : Host.Outcome State Fault Refusal :=
  happen s (given s.powered { s with panel.band := temperatureBand temperature })

/-! ### READ PANEL (R139) -/

/-- A lane's items. -/
def laneItems (l : Lane) : List Byte :=
  item1 l.state.toNat ++ item1 l.source ++ itemRect l.rect ++ item1 l.mode.toNat ++ itemFlag l.promoted
    ++ item1 l.origin.toNat ++ item1 l.requesters.length

/-- A queued entry's items. -/
def entryItems (s : State) (e : UpdateEntry) : List Byte :=
  let tags := e.requesters.filterMap s.tagOf
  item1 e.source ++ itemRect e.rect ++ item1 e.mode.toNat ++ itemFlag e.noPromote ++ item1 e.origin.toNat
    ++ item4 e.order ++ itemList (tags.map item1) ++ item1 (e.requesters.length - tags.length)
    ++ itemFlag e.admission.isSome

/-- The items of READ PANEL. -/
def panelItems (s : State) : List Byte :=
  (s.panel.lanes.toList.flatMap laneItems) ++ itemList (s.panel.queue.map (entryItems s))
    ++ s.panel.ghost.flatMap item1 ++ item1 s.settings.ghostLimit ++ itemFlag s.panel.zeroKnown
    ++ item1 s.panel.supply.toNat ++ item1 s.panel.band ++ itemFlag s.panel.halted ++ item1 s.light.maskCount

/-- READ PANEL. -/
def readPanelOwn (_id : Nat) (s : State) : Verdict := .answered .ok (panelItems s)

/-- READ_PANEL. -/
def execReadPanel (f : Frame) (s : State) : Host.Outcome State Fault Refusal := hostRequest .readPanel f readPanelOwn s

end Sys2Proof.Machine
end

