-- ==== Sys2Proof/Machine/PowerStates.lean ====
section
/-! DEFINITION. The commands of the Power Controller (chapter 8): power states, DORMANT and SHELF, wake arming, battery
and charger, time and alarm, READ_POWER. -/

namespace Sys2Proof.Machine

/-! ### Power states (R157, R158) -/

/-- ENTER READING (R157). -/
def enterReadingOwn (id : Nat) (s : State) : Verdict :=
  if s.power.state = .active then
    .ok id { s with
      power.state := .reading
      power.residency := 0
      power.dormantDelay := s.dormantDelayStart
      light.lightOff := .start s.lightOffMs }
  else .answered .ok []

/-- ENTER_READING. -/
def execEnterReading (f : Frame) (s : State) : Host.Outcome State Fault Refusal :=
  hostRequest .enterReading f enterReadingOwn s

/-- READING ends to ACTIVE by RESUME ACTIVE (R149, R157, R176). -/
def leaveReading (s : State) : State :=
  { s with
    power.state := .active
    power.dormantDelay := .stopped
    power.turnBoost := false
    power.downloadBoost := false
    light.lightOff := .stopped
    light.timedOff := false }

/-- A RESUME ACTIVE is held (R161). -/
def holdResume (request : HeldRequest) (s : State) : Verdict :=
  match s.power.heldWake with
  | some (.resume _) => .refuse .wrongState
  | _ => .acted { s with power.heldWake := some (.resume request) }

/-- RESUME ACTIVE (R157, R161, R163). -/
def resumeActiveOwn (f : Frame) (id : Nat) (s : State) : Verdict :=
  if s.holding then holdResume ⟨id, f.tag⟩ s
  else
    match s.power.state with
    | .reading => .ok id (leaveReading s)
    | .dormant => .acted (endDormant (.resume ⟨id, f.tag⟩) s)
    | _ => .answered .ok []

/-- RESUME_ACTIVE. -/
def execResumeActive (f : Frame) (s : State) : Host.Outcome State Fault Refusal :=
  hostRequest .resumeActive f (resumeActiveOwn f) s

/-- ENTER DORMANT (R158): answered when DORMANT is reached. -/
def enterDormantOwn (f : Frame) (id : Nat) (s : State) : Verdict :=
  .acted (beginDormant (.enterDormant ⟨id, f.tag⟩) s)

/-- ENTER_DORMANT. -/
def execEnterDormant (f : Frame) (s : State) : Host.Outcome State Fault Refusal :=
  hostRequest .enterDormant f (enterDormantOwn f) s

/-- ENTER SHELF (R158): answered when SHELF entry ends without SHELF. -/
def enterShelfOwn (f : Frame) (id : Nat) (s : State) : Verdict :=
  if s.power.entry = some .shelf ∨ s.power.heldShelf ≠ none then .refuse .wrongState
  else if s.holding then .acted { s with power.heldShelf := some ⟨id, f.tag⟩ }
  else if s.power.state = .dormant then .acted (beginShelf [.enterShelf ⟨id, f.tag⟩] s)
  else .acted (beginDormant (.enterShelf ⟨id, f.tag⟩) s)

/-- ENTER_SHELF. -/
def execEnterShelf (f : Frame) (s : State) : Host.Outcome State Fault Refusal :=
  hostRequest .enterShelf f (enterShelfOwn f) s

/-- The causes of a SHELF entry that follows DORMANT (R162, R164). -/
def State.followingCauses (s : State) : List EntryCause :=
  s.shelfWanted.map EntryCause.enterShelf
    ++ (if s.power.dueTimer then [.criticalTimer] else []) ++ (if s.power.dueExhausted then [.exhausted] else [])

/-- What the Power Controller does with what it holds once DORMANT has been reached (R162). -/
def actOnHeld (s : State) : State :=
  if s.power.dueExhausted then beginShelf s.followingCauses s
  else
    match s.power.heldWake with
    | some w => endDormant w (answerAll (s.shelfWanted.map (·.id)) .cancelled [] s)
    | none =>
      if s.followingCauses = [] then { s with power.heldDue := false } else beginShelf s.followingCauses s

/-- DORMANT_HELD_ACTION (R162). -/
def execDormantHeldAction (s : State) : Host.Outcome State Fault Refusal :=
  happen s (given (s.powered && s.power.state == .dormant && s.power.entry.isNone && s.power.heldDue) (actOnHeld s))

/-- The dormant delay has run out (R159). -/
def dormantDelayOut (s : State) : State :=
  if s.power.transfersActive then { s with power.dormantDelay := .deferred } else beginDormant .dormantDelay s

/-- The dormant delay runs. -/
def DormantDelay.isRunning : DormantDelay → Bool
  | .running _ => true
  | .stopped | .deferred => false

/-- DORMANT_DELAY_EXPIRY (R159). -/
def execDormantDelayExpiry (s : State) : Host.Outcome State Fault Refusal :=
  happen s
    (given (s.powered && s.power.state == .reading && s.power.entry.isNone && s.power.dormantDelay.isRunning)
      (dormantDelayOut s))

/-! ### Wake arming (R167) -/

/-- ARM WAKE (R167). -/
def armWakeOwn (f : Frame) (id : Nat) (s : State) : Verdict :=
  let items : ItemSet := BitVec.ofNat 16 (field (Frame.body f) 0 2)
  if items &&& ~~~s.settings.capability = 0 then
    .done id .ok (fun t => item2 t.keep.arming.toNat) { s with keep.arming := items }
  else .refuse .outOfRange

/-- ARM_WAKE. -/
def execArmWake (f : Frame) (s : State) : Host.Outcome State Fault Refusal := hostRequest .armWake f (armWakeOwn f) s

/-! ### Battery and charger (R169 to R171) -/

/-- The count of samples whose candidate differs (R169); the third changes the band. -/
def countSample (candidate : Band) (s : State) : State :=
  let t := { s with power.candidate := candidate }
  if candidate = s.power.band then { t with power.bandCount := 0 }
  else if 2 ≤ s.power.bandCount then changeBand candidate t
  else { t with power.bandCount := s.power.bandCount + 1 }

/-- A SHELF entry caused by EXHAUSTED that has stopped on HALTED in this DORMANT is tried again (R171; log 34). -/
def State.retryDue (s : State) (candidate : Band) : Bool :=
  s.power.retryExhausted && candidate == .exhausted && !s.power.charger && s.power.state == .dormant
    && s.power.entry.isNone && !s.power.heldDue

/-- A battery sample after bring-up (R169, R170, R171). -/
def takeBattery (millivolts : Nat) (s : State) : State :=
  let candidate := candidateBand s.power.band millivolts
  let t := countSample candidate { s with power.millivolts := millivolts }
  if t.retryDue candidate then beginShelf [.exhausted] t else t

/-- BATTERY_SAMPLE (R169). -/
def execBatterySample (millivolts : Nat) (s : State) : Host.Outcome State Fault Refusal :=
  happen s (given (s.powered && s.power.state != .bringup) (takeBattery millivolts s))

/-- The charger attaches or detaches (R171). -/
def chargerChange (present : Bool) (s : State) : State :=
  if present then
    { s with
      power.charger := true
      power.critical := .stopped
      power.attached := s.power.attached || s.power.entry == some .shelf }
  else
    { s with
      power.charger := false
      power.critical := if s.power.band.timed then .running 60000 else s.power.critical }

/-- CHG_CHANGE (R171). -/
def execChgChange (present : Bool) (s : State) : Host.Outcome State Fault Refusal :=
  happen s (given (s.powered && present != s.power.charger) (chargerChange present s))

/-- The CRITICAL timer has run out (R171); in BRINGUP it is acted on at completion. -/
def criticalOut (s : State) : State :=
  let t := { s with power.critical := .stopped }
  if s.power.state = .bringup then { t with power.criticalRanOut := true } else shelfDue .criticalTimer t

/-- CRITICAL_TIMER_EXPIRY (R171). -/
def execCriticalTimerExpiry (s : State) : Host.Outcome State Fault Refusal :=
  happen s (given (s.powered && s.power.critical.isRunning) (criticalOut s))

/-! ### Time base (R177, R178) -/

/-- SET TIME (R177, R27, R178): the reply, then the expiries and the alarm. -/
def setTimeOwn (f : Frame) (id : Nat) (s : State) : Verdict :=
  .acted (testAlarm (processExpiries (answer id .ok []
    { s with
      keep.seconds := field (Frame.body f) 0 4
      keep.milliseconds := 0
      keep.valid := true })))

/-- SET_TIME. -/
def execSetTime (f : Frame) (s : State) : Host.Outcome State Fault Refusal := hostRequest .setTime f (setTimeOwn f) s

/-- The expiries of bring-up have been processed, or bring-up is over (R26, R190). -/
def State.expiriesTested (s : State) : Bool :=
  s.powered && (s.power.state != .bringup || s.power.bringup == .pageMemory)

/-- One step of the real-time count, which stops at its top value (R177, R26, R178). DESIGN CHOICE (log 66): there the
sub-second count stays as it stands, and runs on to 999 (tickKeep). -/
def countStep (s : State) : State :=
  let t := { s with
    keep.seconds := min 4294967295 (s.keep.seconds + 1)
    keep.milliseconds := if s.keep.seconds < 4294967295 then 0 else s.keep.milliseconds }
  testAlarm (if t.expiriesTested then processExpiries t else t)

/-- REAL_TIME_COUNT_STEP: in every state in which the keep-alive domain has power. -/
def execRealTimeCountStep (s : State) : Host.Outcome State Fault Refusal :=
  happen s (given s.keep.powered (countStep s))

/-- SET ALARM (R178). A malformed presence byte is refused before TIME_NOT_SET (log 64). -/
def setAlarmOwn (f : Frame) (id : Nat) (s : State) : Verdict :=
  match optionField (Frame.body f) 0 4 with
  | none => .refuse .outOfRange
  | some alarm =>
    if alarm.isSome && !s.keep.valid then .refuse .timeNotSet
    else .acted (testAlarm (answer id .ok [] { s with keep.alarm := alarm }))

/-- SET_ALARM. -/
def execSetAlarm (f : Frame) (s : State) : Host.Outcome State Fault Refusal := hostRequest .setAlarm f (setAlarmOwn f) s

/-! ### READ POWER (R179; log 24) -/

/-- The code of a cause and the tag of its request. -/
def causeItems (c : EntryCause) : List Byte :=
  match c with
  | .enterDormant request | .enterShelf request => item1 0 ++ itemOption 1 (some request.tag.val)
  | .dormantDelay => item1 1 ++ itemOption 1 none
  | .battery => item1 2 ++ itemOption 1 none
  | .criticalTimer => item1 3 ++ itemOption 1 none
  | .exhausted => item1 4 ++ itemOption 1 none

/-- The fields of a key event (R94). -/
def eventItems (e : KeyEvent) : List Byte :=
  item1 (keyCode e.key) ++ item4 e.seconds ++ item2 e.milliseconds ++ itemFlag e.timeValid

/-- An optional key event: its bytes are 0 when absent (R204). -/
def eventOption : Option KeyEvent → List Byte
  | none => item1 0 ++ List.replicate 8 0
  | some e => item1 1 ++ eventItems e

/-- The held wake: its kind (none, key, alarm, RESUME ACTIVE), the key event and the tag. -/
def wakeItems (w : Option Wake) : List Byte :=
  match w with
  | none => item1 0 ++ eventOption none ++ itemOption 1 none
  | some (.key event) => item1 1 ++ eventOption (some event) ++ itemOption 1 none
  | some .alarm => item1 2 ++ eventOption none ++ itemOption 1 none
  | some (.resume request) => item1 3 ++ eventOption none ++ itemOption 1 (some request.tag.val)

/-- State of the dormant delay: running, run out and deferred, stopped (R156), with its time left. -/
def delayItems : DormantDelay → List Byte
  | .running n => item1 0 ++ itemOption 2 (some ((n + 999) / 1000))
  | .deferred => item1 1 ++ itemOption 2 none
  | .stopped => item1 2 ++ itemOption 2 none

/-- A claim: its claimant in the order of section 8.8, and its units. -/
def claimItems (c : Claim) : List Byte :=
  (match c.owner with
    | .lane _ | .admission => item1 0
    | .port => item1 1
    | .boost => item1 2) ++ item1 c.units

/-- State of the boost claim: none, waiting, granted (R156). -/
def State.boostCode (s : State) : Nat := if s.boostGranted then 2 else if s.boostWaiting then 1 else 0

/-- The items of READ POWER. -/
def powerItems (s : State) : List Byte :=
  let p := s.power
  item1 p.state.toNat ++ item1 (entryCode p.entry) ++ itemOption 1 (p.step.map EntryStep.toNat)
    ++ itemList ((if p.entry = some .shelf then p.shelfCauses else p.dormantCauses).map causeItems)
    ++ wakeItems p.heldWake ++ itemOption 1 (p.heldShelf.map fun request => request.tag.val)
    ++ delayItems p.dormantDelay
    ++ item1 p.band.toNat ++ item2 p.millivolts ++ item1 p.bandCount ++ itemFlag p.charger
    ++ itemOption 1 p.critical.secondsLeft
    ++ item1 s.ceiling ++ itemList (p.granted.map claimItems) ++ itemList (p.waiting.map claimItems)
    ++ item1 p.lightClaim ++ item1 s.allowance
    ++ item1 p.clock.toNat ++ itemFlag p.turnBoost ++ itemFlag p.downloadBoost ++ item1 s.boostCode
    ++ item4 p.residency
    ++ itemFlag p.transfersActive
    ++ item4 s.keep.seconds ++ item2 s.keep.milliseconds ++ itemFlag s.keep.valid ++ itemOption 4 s.keep.alarm
    ++ item2 s.settings.capability.toNat ++ item2 s.keep.arming.toNat ++ itemFlag p.fromShelf

/-- READ POWER. -/
def readPowerOwn (_id : Nat) (s : State) : Verdict := .answered .ok (powerItems s)

/-- READ_POWER. -/
def execReadPower (f : Frame) (s : State) : Host.Outcome State Fault Refusal := hostRequest .readPower f readPowerOwn s

end Sys2Proof.Machine
end

