-- ==== Sys2Proof/Machine/Turning.lean ====
section
/-! DEFINITION. The commands of the keys and the Turn Engine (chapter 5): KEY_EVENT, KEY_RELEASE, READ_KEYS, the
engine's events TURN_HOLD, TURN_RELEASE and POSITION_WRITE, and the host's requests to it. -/

namespace Sys2Proof.Machine

/-! ### Keys -/

/-- The level of a key line. -/
def KeyLines.pressed (k : KeyLines) : Key → Bool
  | .fwd => k.fwd
  | .back => k.back
  | .light => k.light
  | .power => k.power

/-- A key line takes a level (R94). -/
def KeyLines.setLine (k : KeyLines) (key : Key) (level : Bool) : KeyLines :=
  match key with
  | .fwd => { k with fwd := level }
  | .back => { k with back := level }
  | .light => { k with light := level }
  | .power => { k with power := level }

/-- The key lines are taken: bring-up has completed (R94). -/
def State.keysTaken (s : State) : Bool := s.powered && s.power.state != .bringup

/-- A press is taken (R94, R95). -/
def pressKey (key : Key) (s : State) : State :=
  let t := { s with keys := s.keys.setLine key true }
  if s.asleep then offerKey (s.stamp key) t else routeKey (s.stamp key) t

/-- KEY_EVENT: a press of a key that was not pressed. -/
def execKeyEvent (key : Key) (s : State) : Host.Outcome State Fault Refusal :=
  happen s (given (s.keysTaken && !s.keys.pressed key) (pressKey key s))

/-- KEY_RELEASE (R94). -/
def execKeyRelease (key : Key) (s : State) : Host.Outcome State Fault Refusal :=
  happen s (given s.keysTaken { s with keys := s.keys.setLine key false })

/-- A key queue entry on the wire (R97). -/
def keyItems (e : KeyEntry) : List Byte :=
  item1 (keyCode e.event.key) ++ item1 e.reason.toNat ++ item4 e.event.seconds ++ item2 e.event.milliseconds
    ++ itemFlag e.event.timeValid

/-- READ KEYS (R97). -/
def readKeysOwn (f : Frame) (id : Nat) (s : State) : Verdict :=
  let n := field (Frame.body f) 0 1
  if n < 1 ∨ 8 < n then .refuse .outOfRange
  else
    .done id .ok (fun t => itemList ((s.turn.keyQueue.take n).map keyItems) ++ item1 t.turn.keyQueue.length)
      { s with turn.keyQueue := s.turn.keyQueue.drop n }

/-- READ_KEYS. -/
def execReadKeys (f : Frame) (s : State) : Host.Outcome State Fault Refusal :=
  hostRequest .readKeys f (readKeysOwn f) s

/-! ### The Turn Engine's events at the catalogue -/

/-- The catalogue's refusal of a hold (R20). -/
def holdRefusal (r : TitleRecord) : Option Result :=
  match r.state with
  | .ready => if 15 ≤ r.holds then some .holdLimit else none
  | .expired => some .expired
  | _ => some .wrongState

/-- The state of an engine that turns a READY title: TURNING while a turn is in flight (R112, R114; section 5.3). -/
def State.turningState (s : State) : TurnState := if s.turn.flight.isSome then .turning else .ready

/-- The state of an engine that has been given a READY title (R100). -/
def State.restedState (s : State) : TurnState := if s.turn.passThrough then .pass else s.turningState

/-- The hold on the new title is granted: it becomes the current title (R100). A turn of the old title that is in flight
stays in flight, and the engine is then TURNING, not READY (log 45). -/
def takeTitle (c : TitleChange) (s : State) : State :=
  let old := s.turn.title
  let t := sendGiveUp (setHolds c.handle ((s.recordAt c.handle).holds + 1) s)
  let u := { t with
    turn.title := c.handle
    turn.page := c.page
    turn.owed := 0
    turn.refillArmed := true
    turn.change := none
    turn.state := t.restedState
    turn.reason := none
    turn.releases := if old = 0 then t.turn.releases else t.turn.releases ++ [old] }
  answer c.request .ok (item2 c.handle ++ item2 c.page) u

/-- TURN_HOLD: the hold that a SET CURRENT TITLE waits for (R20, R100). -/
def turnHold (c : TitleChange) (s : State) : State :=
  match holdRefusal (s.recordAt c.handle) with
  | none => takeTitle c s
  | some r => answer c.request r [] { s with turn.change := none }

/-- TURN_HOLD. -/
def execTurnHold (s : State) : Host.Outcome State Fault Refusal :=
  happen s
    (match s.turn.change with
    | some c => given s.powered (turnHold c s)
    | none => none)

/-- The engine's own release of its hold on a former title (R21). Where that title is the current one again, the release is
taken like any other (log 53). -/
def turnRelease (h : Nat) (s : State) : State :=
  if (s.recordAt h).holds = 0 then s else holdsGone h (setHolds h ((s.recordAt h).holds - 1) s)

/-- TURN_RELEASE. -/
def execTurnRelease (s : State) : Host.Outcome State Fault Refusal :=
  happen s
    (match s.turn.releases with
    | h :: rest => given s.powered (turnRelease h { s with turn.releases := rest })
    | [] => none)

/-- States in which the Turn Engine's position write applies (R16). -/
def TitleState.takesPosition : TitleState → Bool
  | .ready | .expired | .retiring => true
  | _ => false

/-- The position that a completed turn writes (R16, R106). -/
def positionWrite (w : PositionWrite) (s : State) : State :=
  if (s.recordAt w.handle).state.takesPosition then
    editRecord w.handle (fun p => { p with position := w.page }) s
  else s

/-- POSITION_WRITE. -/
def execPositionWrite (s : State) : Host.Outcome State Fault Refusal :=
  happen s
    (match s.turn.positions with
    | w :: rest => given s.powered (positionWrite w { s with turn.positions := rest })
    | [] => none)

/-! ### Host requests to the Turn Engine -/

/-- A turn is in flight or a title change pending (R100, R101, R113). -/
def State.turnBusy (s : State) : Bool := s.turn.flight.isSome || s.turn.change.isSome

/-- SET CURRENT TITLE (R100). -/
def setCurrentTitleOwn (f : Frame) (id : Nat) (s : State) : Verdict :=
  let h := field (Frame.body f) 0 2
  let page := field (Frame.body f) 2 2
  if !validHandle h then .refuse .badHandle
  else if s.turnBusy then .refuse .wrongState
  else if s.turn.title = h then
    match (s.recordAt h).state with
    | .ready =>
      .ok id { s with
        turn.page := page
        turn.owed := 0
        turn.refillArmed := true
        turn.state := s.restedState
        turn.reason := none }
    | .expired => .refuse .expired
    | _ => .refuse .wrongState
  else .acted { s with turn.change := some ⟨h, page, id⟩ }

/-- SET_CURRENT_TITLE. -/
def execSetCurrentTitle (f : Frame) (s : State) : Host.Outcome State Fault Refusal :=
  hostRequest .setCurrentTitle f (setCurrentTitleOwn f) s

/-- CLEAR CURRENT TITLE (R101). -/
def clearCurrentTitleOwn (id : Nat) (s : State) : Verdict :=
  if s.turn.title = 0 ∨ s.turnBusy = true then .refuse .wrongState
  else
    let t := sendGiveUp s
    .ok id { t with
      turn.title := 0
      turn.page := 0
      turn.owed := 0
      turn.reason := none
      turn.refillArmed := true
      turn.state := if s.turn.passThrough then .pass else .off
      turn.releases := t.turn.releases ++ [s.turn.title] }

/-- CLEAR_CURRENT_TITLE. -/
def execClearCurrentTitle (f : Frame) (s : State) : Host.Outcome State Fault Refusal :=
  hostRequest .clearCurrentTitle f clearCurrentTitleOwn s

/-- RESUME TURNING (R114). -/
def resumeTurningOwn (id : Nat) (s : State) : Verdict :=
  if s.turn.state = .stopped ∧ (s.recordAt s.turn.title).state = .ready then
    .ok id { s with
      turn.reason := none
      turn.state := s.turningState }
  else .refuse .wrongState

/-- RESUME_TURNING. -/
def execResumeTurning (f : Frame) (s : State) : Host.Outcome State Fault Refusal :=
  hostRequest .resumeTurning f resumeTurningOwn s

/-- Pass-through is switched on (R112). -/
def passOn (s : State) : State :=
  { handOverOwed .passed s with turn.passThrough := true, turn.state := .pass, turn.reason := none }

/-- Pass-through is switched off (R112). -/
def passOff (s : State) : State :=
  let t := { s with turn.passThrough := false }
  if s.turn.title = 0 then { t with turn.state := .off }
  else
    match (s.recordAt s.turn.title).state with
    | .ready => { t with turn.state := s.turningState }
    | .expired => post .turnStopped { t with turn.state := .stopped, turn.reason := some .expired }
    | _ => post .turnStopped { t with turn.state := .stopped, turn.reason := some .retiring }

/-- SET PASS-THROUGH (R112). -/
def setPassThroughOwn (f : Frame) (id : Nat) (s : State) : Verdict :=
  match flagField (Frame.body f) 0 with
  | none => .refuse .outOfRange
  | some wanted =>
    if wanted = s.turn.passThrough then .answered .ok (item1 s.turn.state.toNat)
    else .done id .ok (fun t => item1 t.turn.state.toNat) (if wanted then passOn s else passOff s)

/-- SET_PASS_THROUGH. -/
def execSetPassThrough (f : Frame) (s : State) : Host.Outcome State Fault Refusal :=
  hostRequest .setPassThrough f (setPassThroughOwn f) s

/-- GO TO PAGE (R113): answered when the turn ends. -/
def goToPageOwn (f : Frame) (id : Nat) (s : State) : Verdict :=
  match slotNumber (field (Frame.body f) 0 1) with
  | none => .refuse .outOfRange
  | some i =>
    if s.turn.title = 0 ∨ s.turnBusy = true then .refuse .wrongState
    else
      match (s.recordAt s.turn.title).state with
      | .ready =>
        if s.turnable s.pm.slots[i] then
          .acted { s with
            turn.flight := some ⟨i, s.pm.slots[i].page, .goTo, .goTo id, false, false, false⟩
            turn.state := if s.turn.state = .ready then .turning else s.turn.state }
        else .refuse .slotState
      | .expired => .refuse .expired
      | _ => .refuse .wrongState

/-- GO_TO_PAGE. -/
def execGoToPage (f : Frame) (s : State) : Host.Outcome State Fault Refusal :=
  hostRequest .goToPage f (goToPageOwn f) s

/-- The items of READ TURN STATE (R115). -/
def turnItems (s : State) : List Byte :=
  let t := s.turn
  let flight : List Byte :=
    match t.flight with
    | none => item1 0 ++ List.replicate 4 0
    | some f => item1 1 ++ item1 f.slot.val ++ item2 f.page ++ item1 f.direction.toNat
  item1 t.state.toNat ++ itemOption 1 (t.reason.map StopReason.toNat) ++ itemFlag t.passThrough ++ item2 t.title
    ++ item2 t.page ++ itemSigned t.owed ++ flight ++ itemFlag t.change.isSome ++ itemFlag t.refillArmed
    ++ item1 s.pagesAhead ++ itemFlag s.power.turnBoost ++ item1 t.keyQueue.length

/-- READ TURN STATE (R115). -/
def readTurnStateOwn (_id : Nat) (s : State) : Verdict := .answered .ok (turnItems s)

/-- READ_TURN_STATE. -/
def execReadTurnState (f : Frame) (s : State) : Host.Outcome State Fault Refusal :=
  hostRequest .readTurnState f readTurnStateOwn s

end Sys2Proof.Machine
end

