-- ==== Sys2Proof/Machine/Dispatch.lean ====
section
/-! DEFINITION. The meaning of every command: one arm per constructor of `Instr`. -/

namespace Sys2Proof.Machine

def exec (i : Instr) (s : State) : Host.Outcome State Fault Refusal :=
  match i with
  | .coldStart inputs backup => Sys2Proof.Machine.execColdStart inputs backup s
  | .partReset inputs => Sys2Proof.Machine.execPartReset inputs s
  | .shelfWake inputs => Sys2Proof.Machine.execShelfWake inputs s
  | .bringupReadEnd => Sys2Proof.Machine.execBringupReadEnd s
  | .bringupCompletion temperature pressed ambient => Sys2Proof.Machine.execBringupCompletion temperature pressed ambient s
  | .shortTransaction bytes => Sys2Proof.Machine.execShortTransaction bytes s
  | .badHeader header => Sys2Proof.Machine.execBadHeader header s
  | .unknownRequest code f => Sys2Proof.Machine.execUnknownRequest code f s
  | .findTitle f => Sys2Proof.Machine.execFindTitle f s
  | .readTitleRecord f => Sys2Proof.Machine.execReadTitleRecord f s
  | .listTitles f => Sys2Proof.Machine.execListTitles f s
  | .readTitleBytes f => Sys2Proof.Machine.execReadTitleBytes f s
  | .setPosition f => Sys2Proof.Machine.execSetPosition f s
  | .setTag f => Sys2Proof.Machine.execSetTag f s
  | .setLayoutGeneration f => Sys2Proof.Machine.execSetLayoutGeneration f s
  | .setExpiry f => Sys2Proof.Machine.execSetExpiry f s
  | .holdTitle f => Sys2Proof.Machine.execHoldTitle f s
  | .releaseTitle f => Sys2Proof.Machine.execReleaseTitle f s
  | .retireTitle f => Sys2Proof.Machine.execRetireTitle f s
  | .flushCatalogue f => Sys2Proof.Machine.execFlushCatalogue f s
  | .writeBackDelayExpiry => Sys2Proof.Machine.execWriteBackDelayExpiry s
  | .sectorWriteEnd success => Sys2Proof.Machine.execSectorWriteEnd success s
  | .titleReadPieceEnd => Sys2Proof.Machine.execTitleReadPieceEnd s
  | .startDownload f => Sys2Proof.Machine.execStartDownload f s
  | .restartDownload f => Sys2Proof.Machine.execRestartDownload f s
  | .cancelDownload f => Sys2Proof.Machine.execCancelDownload f s
  | .readTransfer f => Sys2Proof.Machine.execReadTransfer f s
  | .segmentFrame r => Sys2Proof.Machine.execSegmentFrame r s
  | .queryTransfer r => Sys2Proof.Machine.execQueryTransfer r s
  | .endOfStream r => Sys2Proof.Machine.execEndOfStream r s
  | .radioStatusRead => Sys2Proof.Machine.execRadioStatusRead s
  | .badRadioFrame bytes => Sys2Proof.Machine.execBadRadioFrame bytes s
  | .blockEraseEnd success => Sys2Proof.Machine.execBlockEraseEnd success s
  | .segmentProgramEnd success => Sys2Proof.Machine.execSegmentProgramEnd success s
  | .verificationReadEnd => Sys2Proof.Machine.execVerificationReadEnd s
  | .inactivityDeadlineExpiry slot => Sys2Proof.Machine.execInactivityDeadlineExpiry slot s
  | .claimSlot f => Sys2Proof.Machine.execClaimSlot f s
  | .writePixels f flips => Sys2Proof.Machine.execWritePixels f flips s
  | .completeSlot f => Sys2Proof.Machine.execCompleteSlot f s
  | .freeSlot f => Sys2Proof.Machine.execFreeSlot f s
  | .readSlots f => Sys2Proof.Machine.execReadSlots f s
  | .keyEvent key => Sys2Proof.Machine.execKeyEvent key s
  | .keyRelease key => Sys2Proof.Machine.execKeyRelease key s
  | .readKeys f => Sys2Proof.Machine.execReadKeys f s
  | .showSlot => Sys2Proof.Machine.execShowSlot s
  | .giveUpShownSlot => Sys2Proof.Machine.execGiveUpShownSlot s
  | .trailingRelease => Sys2Proof.Machine.execTrailingRelease s
  | .turnHold => Sys2Proof.Machine.execTurnHold s
  | .turnRelease => Sys2Proof.Machine.execTurnRelease s
  | .positionWrite => Sys2Proof.Machine.execPositionWrite s
  | .setCurrentTitle f => Sys2Proof.Machine.execSetCurrentTitle f s
  | .clearCurrentTitle f => Sys2Proof.Machine.execClearCurrentTitle f s
  | .resumeTurning f => Sys2Proof.Machine.execResumeTurning f s
  | .setPassThrough f => Sys2Proof.Machine.execSetPassThrough f s
  | .goToPage f => Sys2Proof.Machine.execGoToPage f s
  | .readTurnState f => Sys2Proof.Machine.execReadTurnState f s
  | .updateRegion f => Sys2Proof.Machine.execUpdateRegion f s
  | .cancelUpdates f => Sys2Proof.Machine.execCancelUpdates f s
  | .laneLoadEnd lane reads => Sys2Proof.Machine.execLaneLoadEnd lane reads s
  | .panelSupplyRegulation => Sys2Proof.Machine.execPanelSupplyRegulation s
  | .panelSupplyFailure => Sys2Proof.Machine.execPanelSupplyFailure s
  | .offDelayEnd => Sys2Proof.Machine.execOffDelayEnd s
  | .driveEnd lane => Sys2Proof.Machine.execDriveEnd lane s
  | .laneCompletion lane flips => Sys2Proof.Machine.execLaneCompletion lane flips s
  | .readPanel f => Sys2Proof.Machine.execReadPanel f s
  | .temperatureSample temperature => Sys2Proof.Machine.execTemperatureSample temperature s
  | .setLight f => Sys2Proof.Machine.execSetLight f s
  | .readLight f => Sys2Proof.Machine.execReadLight f s
  | .ambientSample reading => Sys2Proof.Machine.execAmbientSample reading s
  | .rampStep => Sys2Proof.Machine.execRampStep s
  | .autoDimExpiry => Sys2Proof.Machine.execAutoDimExpiry s
  | .lightOffExpiry => Sys2Proof.Machine.execLightOffExpiry s
  | .enterReading f => Sys2Proof.Machine.execEnterReading f s
  | .resumeActive f => Sys2Proof.Machine.execResumeActive f s
  | .enterDormant f => Sys2Proof.Machine.execEnterDormant f s
  | .enterShelf f => Sys2Proof.Machine.execEnterShelf f s
  | .dormantHeldAction => Sys2Proof.Machine.execDormantHeldAction s
  | .dormantDelayExpiry => Sys2Proof.Machine.execDormantDelayExpiry s
  | .armWake f => Sys2Proof.Machine.execArmWake f s
  | .batterySample millivolts => Sys2Proof.Machine.execBatterySample millivolts s
  | .chgChange present => Sys2Proof.Machine.execChgChange present s
  | .criticalTimerExpiry => Sys2Proof.Machine.execCriticalTimerExpiry s
  | .setTime f => Sys2Proof.Machine.execSetTime f s
  | .realTimeCountStep => Sys2Proof.Machine.execRealTimeCountStep s
  | .setAlarm f => Sys2Proof.Machine.execSetAlarm f s
  | .readPower f => Sys2Proof.Machine.execReadPower f s
  | .readFault f => Sys2Proof.Machine.execReadFault f s
  | .clearFault f => Sys2Proof.Machine.execClearFault f s
  | .writeSettings f => Sys2Proof.Machine.execWriteSettings f s
  | .settingsWriteEnd success => Sys2Proof.Machine.execSettingsWriteEnd success s
  | .readSettings f => Sys2Proof.Machine.execReadSettings f s
  | .writeWaveforms f => Sys2Proof.Machine.execWriteWaveforms f s
  | .waveformWriteEnd success => Sys2Proof.Machine.execWaveformWriteEnd success s
  | .status f => Sys2Proof.Machine.execStatus f s
  | .fetchReply f => Sys2Proof.Machine.execFetchReply f s
  | .replyFetched => Sys2Proof.Machine.execReplyFetched s
  | .ackAttention f => Sys2Proof.Machine.execAckAttention f s
  | .resetLink f => Sys2Proof.Machine.execResetLink f s
  | .restart f => Sys2Proof.Machine.execRestart f s
  | .mainSupplyLoss vkaStays => Sys2Proof.Machine.execMainSupplyLoss vkaStays s

end Sys2Proof.Machine
end

