-- ==== Sys2Proof/Machine/Tick.lean ====
section
/-! DEFINITION. One millisecond of the clock: what a step does when no command waits (log 8). -/

namespace Sys2Proof.Machine

/-- One millisecond passes for an inactivity deadline. -/
def Deadline.tick : Deadline → Deadline
  | .running n => .running (n - 1)
  | d => d

/-- One millisecond passes for the dormant delay. -/
def DormantDelay.tick : DormantDelay → DormantDelay
  | .running n => .running (n - 1)
  | d => d

/-- The residency counter after a millisecond (R176). -/
def State.residencyAfter (s : State) : Nat :=
  if s.power.state = .reading ∧ s.boostGranted = true then min 4294967295 (s.power.residency + 1)
  else s.power.residency

/-- One millisecond passes for the keep-alive domain: the sub-second count waits at 999 for the count's step (R177), and
stays there once the count stands at its top (log 66). -/
def tickKeep (s : State) : State :=
  if s.keep.powered then { s with keep.milliseconds := min 999 (s.keep.milliseconds + 1) } else s

/-- One millisecond passes for the main domain's counters and timers. -/
def tickMain (s : State) : State :=
  if s.powered then
    { s with
      wb.elapsed := if s.power.state = .bringup then s.wb.elapsed else s.wb.elapsed + 1
      dl.slots := s.dl.slots.map fun t => { t with deadline := t.deadline.tick }
      panel.offDelay := s.panel.offDelay.tick
      light.autoDim := s.light.autoDim.tick
      light.lightOff := s.light.lightOff.tick
      light.ramp := s.light.ramp.tick
      power.dormantDelay := s.power.dormantDelay.tick
      power.critical := s.power.critical.tick
      power.residency := s.residencyAfter }
  else s

/-- One millisecond passes. -/
def tick (s : State) : State := tickMain (tickKeep s)

/-- What a step does when no command waits: CS_N rises after an accepted RESTART and the part is reset (R200; log 35), or a
millisecond passes (log 8). -/
def idle (s : State) : State := if s.powered && s.link.restart then restarted s else tick s

end Sys2Proof.Machine
end

