-- ==== Sys2Proof/Safety.lean ====
section
/-! DEFINITION. What the statements speak of: the conditions under which a command is taken, the parts of the state that
an event leaves alone, and the invariants. -/

namespace Sys2Proof.Machine

/-! ### Requests -/

/-- The command that brings a request frame of a code (section 11.5); `flips` matter to WRITE PIXELS alone. -/
def RequestCode.command (code : RequestCode) (f : Frame) (flips : List WordFlip) : Instr :=
  match code with
  | .writePixels => .writePixels f flips
  | .findTitle => .findTitle f
  | .readTitleRecord => .readTitleRecord f
  | .listTitles => .listTitles f
  | .readTitleBytes => .readTitleBytes f
  | .setPosition => .setPosition f
  | .setTag => .setTag f
  | .setLayoutGeneration => .setLayoutGeneration f
  | .setExpiry => .setExpiry f
  | .holdTitle => .holdTitle f
  | .releaseTitle => .releaseTitle f
  | .retireTitle => .retireTitle f
  | .flushCatalogue => .flushCatalogue f
  | .startDownload => .startDownload f
  | .restartDownload => .restartDownload f
  | .cancelDownload => .cancelDownload f
  | .readTransfer => .readTransfer f
  | .claimSlot => .claimSlot f
  | .completeSlot => .completeSlot f
  | .freeSlot => .freeSlot f
  | .readSlots => .readSlots f
  | .readKeys => .readKeys f
  | .setCurrentTitle => .setCurrentTitle f
  | .clearCurrentTitle => .clearCurrentTitle f
  | .resumeTurning => .resumeTurning f
  | .setPassThrough => .setPassThrough f
  | .goToPage => .goToPage f
  | .readTurnState => .readTurnState f
  | .updateRegion => .updateRegion f
  | .cancelUpdates => .cancelUpdates f
  | .readPanel => .readPanel f
  | .setLight => .setLight f
  | .readLight => .readLight f
  | .enterReading => .enterReading f
  | .resumeActive => .resumeActive f
  | .enterDormant => .enterDormant f
  | .enterShelf => .enterShelf f
  | .armWake => .armWake f
  | .setTime => .setTime f
  | .setAlarm => .setAlarm f
  | .readPower => .readPower f
  | .readFault => .readFault f
  | .clearFault => .clearFault f
  | .writeSettings => .writeSettings f
  | .readSettings => .readSettings f
  | .writeWaveforms => .writeWaveforms f
  | .status => .status f
  | .fetchReply => .fetchReply f
  | .ackAttention => .ackAttention f
  | .resetLink => .resetLink f
  | .restart => .restart f

/-- The port takes the request and hands it to its owner (R193, R194, R166, R195): the main domain has power, no part
reset of a RESTART is due, no check of R193 fails, and the port itself has no answer to give. -/
def takes (code : RequestCode) (f : Frame) (s : State) : Prop :=
  s.powered = true ∧ s.link.restart = false ∧ s.refusal code f = none ∧ s.portAnswer code f = none

/-- The in-line request is acted on (R193, R195). -/
def takesInline (code : RequestCode) (f : Frame) (s : State) : Prop :=
  s.powered = true ∧ s.link.restart = false ∧ s.refusal code f = none ∧ Frame.expects f = false
    ∧ code.lengthGood (Frame.body f) = true

/-- No outstanding request has a number that the port has not given yet. -/
def numbersFresh (s : State) : Prop := ∀ o ∈ s.link.outstanding, o.id < s.link.nextId

/-- The state after a request that is answered at once and changes nothing else: the reply is queued, the request is
outstanding under its tag until the reply is fetched, and the immediate status is ACCEPTED (R193, R194, R196). -/
def repliedOnly (code : RequestCode) (f : Frame) (result : Result) (payload : List Byte) (s : State) : State :=
  let t : State := { s with
    link.outstanding := s.link.outstanding ++ [⟨s.link.nextId, f.tag, code, true⟩]
    link.replies := s.link.replies ++ [⟨f.tag, some code, result, payload⟩]
    link.nextId := s.link.nextId + 1
    link.fetching := false
    link.out := .answer ⟨.accepted, f.tag, s.link.outstanding.length + 1, s.link.replies.length + 1⟩ none }
  { t with pins := ⟨t.attnCondition, t.rrdyCondition⟩ }

/-- The state after a frame that is not accepted: only what the part shifts out changes (R193). -/
def onlyStatus (code : Immediate) (f : Frame) (s : State) : State :=
  { s with
    link.fetching := false
    link.out := .answer ⟨code, f.tag, s.link.outstanding.length, s.link.replies.length⟩ none }

/-- The state after an in-line request that changes nothing: its answer follows the immediate status (R193). -/
def answeredInline (f : Frame) (reply : Reply) (fetching : Bool) (s : State) : State :=
  { s with
    link.fetching := fetching
    link.out := .answer ⟨.accepted, f.tag, s.link.outstanding.length, s.link.replies.length⟩ (some reply) }

/-- The outstanding request of a number that has no reply yet. -/
def State.awaiting (s : State) (id : Nat) : Option Outstanding :=
  s.link.outstanding.find? fun o => o.id == id && !o.replied

/-- The reply to an outstanding request is in the queue. -/
def answeredWith (o : Outstanding) (result : Result) (payload : List Byte) (t : State) : Prop :=
  (⟨o.tag, some o.code, result, payload⟩ : Reply) ∈ t.link.replies

/-- The reply is in the queue. -/
def hasReply (code : RequestCode) (f : Frame) (result : Result) (payload : List Byte) (t : State) : Prop :=
  (⟨f.tag, some code, result, payload⟩ : Reply) ∈ t.link.replies

/-- The request is answered in its event, and no other request is: its reply joins the queue, and it stays outstanding
under its tag until the reply is fetched (R194, R196). -/
def replies (code : RequestCode) (f : Frame) (result : Result) (payload : List Byte) (s t : State) : Prop :=
  t.link.replies = s.link.replies ++ [⟨f.tag, some code, result, payload⟩]
    ∧ t.link.outstanding = s.link.outstanding ++ [⟨s.link.nextId, f.tag, code, true⟩]

/-- The request is accepted and waits for its reply, and no request is answered in its event. -/
def waits (code : RequestCode) (f : Frame) (s t : State) : Prop :=
  t.link.replies = s.link.replies
    ∧ t.link.outstanding = s.link.outstanding ++ [⟨s.link.nextId, f.tag, code, false⟩]

/-! ### Parts of the state -/

/-- The parts of the state: together they are all of it. -/
inductive Part where
  | queue | titles | expiries | reads | blocks | flash | writeBack | transfers | radio
  | pixels | wordErrors | slots | heldWrites | turning | keyLines | ghosts | waveforms
  | lightChoice | battery | heldWakes | shelfEntry | residency | keepAlive | supplies | faults | settings
  | attention | replies | port | unwritten
  | dirtyFlags | covers | flashPort | sectorWrites | transferStages | pageMemoryMode | updates | lanes | panelSupply
  | panelSense | lightOutputs | lightTimers | entry | budget | boosts | outstanding | lines | freeValues
  deriving DecidableEq, Repr

/-- The end of an event (the grants, the choices of the port and of the panel, an unload, the steps of a DORMANT entry)
never touches the part. -/
def Part.lasting : Part → Bool
  | .dirtyFlags | .covers | .flashPort | .sectorWrites | .transferStages | .pageMemoryMode | .updates | .lanes
  | .panelSupply | .panelSense | .lightOutputs | .lightTimers | .entry | .budget | .boosts | .outstanding | .lines
  | .freeValues => false
  | _ => true

/-- What a transfer slot holds beside its stage and its deadline. -/
def TransferSlot.content (t : TransferSlot) :
    (Nat × Nat × List Bool × List Nat) × (List Bool × List Nat × Option Verification × Nat) :=
  ((t.handle, t.tag, t.received, t.pending), (t.erased, t.erasing, t.verification, t.xfer))

/-- What a segment buffer holds beside its mark. -/
def Segment.content (g : Segment) : (Nat × Nat × Nat) × (List Byte × Nat) :=
  ((g.xfer, g.tag, g.index), (g.payload, g.order))

/-- The sector waits in the write-back queue or is being written (R40). -/
def State.unwritten (s : State) (sector : Nat) : Prop :=
  (∃ e ∈ s.wb.queue, e.sector = sector) ∨ ∃ w, s.wb.inFlight = some w ∧ w.sector = sector

/-- The part is the same in both states; of the replies, that those of the first are still queued, in order and before
any later one, and of the unwritten sectors, that they are still to be written or being written. -/
def Part.kept (p : Part) (s t : State) : Prop :=
  match p with
  | .queue => t.pending = s.pending
  | .titles => ∀ h,
      (t.recordAt h).toPersisted = (s.recordAt h).toPersisted ∧ (t.recordAt h).holds = (s.recordAt h).holds
  | .expiries => t.cat.expiryList = s.cat.expiryList
  | .reads => t.cat.reads.map (fun r => (r.request, r.handle, r.piecesLeft, r.bytes))
      = s.cat.reads.map (fun r => (r.request, r.handle, r.piecesLeft, r.bytes))
  | .blocks => t.blocks.size = s.blocks.size ∧ t.blocks.conditions = s.blocks.conditions
      ∧ t.blocks.releaseList.map (fun e => (e.extent, e.sector))
        = s.blocks.releaseList.map (fun e => (e.extent, e.sector))
  | .flash => t.flash = s.flash
  | .writeBack => t.wb.halted = s.wb.halted ∧ t.wb.elapsed = s.wb.elapsed
  | .transfers => t.dl.tagCounter = s.dl.tagCounter ∧ t.dl.nextXfer = s.dl.nextXfer
      ∧ t.dl.nextAccept = s.dl.nextAccept
      ∧ (∀ i : Fin 4, TransferSlot.content t.dl.slots[i] = TransferSlot.content s.dl.slots[i])
      ∧ ∀ i : Fin 4, t.dl.buffers[i].map Segment.content = s.dl.buffers[i].map Segment.content
  | .radio => t.radio = s.radio
  | .pixels => t.pm.cells = s.pm.cells
  | .wordErrors => t.pm.errors = s.pm.errors
  | .slots => t.pm.slots = s.pm.slots
  | .heldWrites => t.pm.held = s.pm.held
  | .turning => t.turn = s.turn
  | .keyLines => t.keys = s.keys
  | .ghosts => t.panel.ghost = s.panel.ghost ∧ t.panel.halted = s.panel.halted
      ∧ t.panel.nextOrder = s.panel.nextOrder
  | .waveforms => t.waveform = s.waveform
  | .lightChoice => t.light.switch = s.light.switch ∧ t.light.level = s.light.level ∧ t.light.warmth = s.light.warmth
      ∧ t.light.auto = s.light.auto ∧ t.light.history = s.light.history ∧ t.light.factor = s.light.factor
      ∧ t.light.refill = s.light.refill ∧ t.light.dimmed = s.light.dimmed ∧ t.light.timedOff = s.light.timedOff
  | .battery => t.power.band = s.power.band ∧ t.power.millivolts = s.power.millivolts
      ∧ t.power.bandCount = s.power.bandCount ∧ t.power.candidate = s.power.candidate
      ∧ t.power.charger = s.power.charger ∧ t.power.critical = s.power.critical
      ∧ t.power.criticalRanOut = s.power.criticalRanOut
  | .heldWakes => t.power.heldWake = s.power.heldWake ∧ t.power.heldShelf = s.power.heldShelf
      ∧ t.power.fromShelf = s.power.fromShelf ∧ t.power.bringup = s.power.bringup
  | .shelfEntry => t.power.shelfCauses = s.power.shelfCauses ∧ t.power.shelfFlush = s.power.shelfFlush
      ∧ t.power.dueExhausted = s.power.dueExhausted ∧ t.power.dueTimer = s.power.dueTimer
      ∧ t.power.retryExhausted = s.power.retryExhausted ∧ t.power.attached = s.power.attached
  | .residency => t.power.residency = s.power.residency
  | .keepAlive => t.keep = s.keep
  | .supplies => t.supplies = s.supplies
  | .faults => t.faults = s.faults
  | .settings => t.settings = s.settings ∧ t.storedSize = s.storedSize ∧ t.settingsGood = s.settingsGood
  | .attention => t.link.attention = s.link.attention
  | .replies => s.link.replies <+: t.link.replies
  | .port => t.link.out = s.link.out ∧ t.link.fetching = s.link.fetching ∧ t.link.restart = s.link.restart
      ∧ t.link.nextId = s.link.nextId
  | .unwritten => ∀ sector, s.unwritten sector → t.unwritten sector
  | .dirtyFlags => ∀ h, (t.recordAt h).dirty = (s.recordAt h).dirty
  | .covers => t.blocks.releaseList.map (·.cover) = s.blocks.releaseList.map (·.cover)
  | .flashPort => t.port = s.port ∧ t.cat.reads.map (·.granted) = s.cat.reads.map (·.granted)
  | .sectorWrites => t.wb.queue = s.wb.queue ∧ t.wb.inFlight = s.wb.inFlight ∧ t.wb.flushes = s.wb.flushes
      ∧ t.wb.nextWrite = s.wb.nextWrite
  | .transferStages => t.dl.suspended = s.dl.suspended
      ∧ (∀ i : Fin 4, t.dl.slots[i].state = s.dl.slots[i].state ∧ t.dl.slots[i].deadline = s.dl.slots[i].deadline)
      ∧ ∀ i : Fin 4, t.dl.buffers[i].map (·.mark) = s.dl.buffers[i].map (·.mark)
  | .pageMemoryMode => t.pm.mode = s.pm.mode
  | .updates => t.panel.queue = s.panel.queue
  | .lanes => t.panel.lanes = s.panel.lanes
  | .panelSupply => t.panel.supply = s.panel.supply ∧ t.panel.offDelay = s.panel.offDelay
  | .panelSense => t.panel.zeroKnown = s.panel.zeroKnown ∧ t.panel.band = s.panel.band
  | .lightOutputs => t.light.maskCount = s.light.maskCount ∧ t.light.allowance = s.light.allowance
      ∧ t.light.warmTarget = s.light.warmTarget ∧ t.light.coolTarget = s.light.coolTarget
      ∧ t.light.warmOutput = s.light.warmOutput ∧ t.light.coolOutput = s.light.coolOutput ∧ t.light.ramp = s.light.ramp
  | .lightTimers => t.light.forcedDark = s.light.forcedDark ∧ t.light.autoDim = s.light.autoDim
      ∧ t.light.lightOff = s.light.lightOff
  | .entry => t.power.state = s.power.state ∧ t.power.entry = s.power.entry ∧ t.power.step = s.power.step
      ∧ t.power.dormantCauses = s.power.dormantCauses ∧ t.power.heldDue = s.power.heldDue
      ∧ t.power.entryFlush = s.power.entryFlush ∧ t.power.dormantDelay = s.power.dormantDelay
  | .budget => t.power.granted = s.power.granted ∧ t.power.waiting = s.power.waiting
      ∧ t.power.lightClaim = s.power.lightClaim ∧ t.power.clock = s.power.clock
  | .boosts => t.power.turnBoost = s.power.turnBoost ∧ t.power.downloadBoost = s.power.downloadBoost
      ∧ t.power.transfersActive = s.power.transfersActive
  | .outstanding => t.link.outstanding = s.link.outstanding
  | .lines => t.pins = s.pins
  | .freeValues => t.freeCount = s.freeCount

/-- Every part that the end of an event leaves alone is kept, but for those named. -/
def keptBut (changed : List Part) (s t : State) : Prop := ∀ p : Part, p.lasting = true → p ∉ changed → p.kept s t

/-! ### The flash port -/

/-- The operation that has the port, and those that wait in the order they were placed (R35). -/
def State.portOps (s : State) : List FlashOp :=
  (match s.port.phase with
    | .idle => []
    | .claiming op | .busy op => [op]) ++ s.port.waiting

/-- The budget claim of an operation (R34). -/
def FlashJob.units : FlashJob → Nat
  | .titleRead _ _ _ | .verifyRead _ _ _ | .bringupRead _ => 10
  | .erase _ _ _ _ | .program _ _ _ _ _ | .sectorWrite _ _ _ | .settingsWrite _ _ | .waveformWrite _ _ => 25

/-! ### Title records -/

/-- A change request that the checks of R4 let through: the handle names a record, an expected revision is the record's,
and the record is not EMPTY or RETIRING. -/
def changeStands (f : Frame) (s : State) : Prop :=
  let h := field (Frame.body f) 0 2
  validHandle h = true ∧ (∀ r, Frame.revision f = some r → r = (s.recordAt h).revision)

/-- Every record but one keeps its persisted fields and its holds. -/
def titlesBut (h : Nat) (s t : State) : Prop :=
  ∀ g, g ≠ h → (t.recordAt g).toPersisted = (s.recordAt g).toPersisted ∧ (t.recordAt g).holds = (s.recordAt g).holds

/-- The persisted fields after an event that gives them the values of `q`: the revision rises by 1 where it changes a
field (R3). -/
def revised (p q : Persisted) : Persisted := if q = p then p else { q with revision := p.revision + 1 }

/-- An event gives the persisted fields of one record the values of `q`, and its sector is unwritten if that changes
them (R3, R5); the other records are kept. -/
def recordBecomes (h : Nat) (q : Persisted) (s t : State) : Prop :=
  (t.recordAt h).toPersisted = revised (s.recordAt h).toPersisted q ∧ (t.recordAt h).holds = (s.recordAt h).holds
    ∧ titlesBut h s t ∧ (q ≠ (s.recordAt h).toPersisted → t.unwritten (sectorOf h))

/-- The retirement of a record completes in an event that raises its revision by `rise` (R24): the record is EMPTY, its
extents are RELEASING behind its catalogue sector, which is unwritten, and TITLE_RETIRED is posted. -/
def retirementCompletes (h rise : Nat) (s t : State) : Prop :=
  let r := s.recordAt h
  (t.recordAt h).toPersisted = { Persisted.blank with revision := r.revision + BitVec.ofNat 16 rise }
    ∧ (t.recordAt h).holds = 0 ∧ titlesBut h s t ∧ t.unwritten (sectorOf h)
    ∧ t.blocks.size = s.blocks.size
    ∧ t.blocks.conditions = fillExtents (.releasing (sectorOf h)) r.extents s.blocks.conditions
    ∧ t.blocks.releaseList.map (fun e => (e.extent, e.sector))
      = s.blocks.releaseList.map (fun e => (e.extent, e.sector)) ++ r.extents.map (fun e => (e, sectorOf h))
    ∧ t.reasonSet .titleRetired = true

/-! ### Transfers -/

/-- A transfer ends in its slot (R70): the slot and the buffers of its segments are free, but for a segment that is being
programmed; the other slots and buffers are kept. -/
def transferEnds (i : Fin 4) (s t : State) : Prop :=
  TransferSlot.content t.dl.slots[i] = TransferSlot.content TransferSlot.blank
    ∧ (∀ j : Fin 4, j ≠ i → TransferSlot.content t.dl.slots[j] = TransferSlot.content s.dl.slots[j])
    ∧ ∀ b : Fin 4, t.dl.buffers[b].map Segment.content
        = (dropSegment s.dl.slots[i].xfer s.dl.buffers[b]).map Segment.content

/-- The end of a record's transfer reaches the catalogue (R9): a FETCHING record takes the state and the last fetch result
and its revision rises by 1; any other record, and all the others, are kept. -/
def fetchEnds (h : Nat) (state : TitleState) (result : FetchResult) (s t : State) : Prop :=
  (t.recordAt h).toPersisted =
      (if (s.recordAt h).state = .fetching then
        { (s.recordAt h).toPersisted with
          state := state, fetch := result, revision := (s.recordAt h).revision + 1 }
      else (s.recordAt h).toPersisted)
    ∧ (t.recordAt h).holds = (s.recordAt h).holds ∧ titlesBut h s t

/-- A transfer fails (R66, R68, R69): its record becomes INCOMPLETE with the reason, and DOWNLOAD_FAILED is posted. -/
def transferFails (i : Fin 4) (reason : FetchResult) (s t : State) : Prop :=
  transferEnds i s t ∧ fetchEnds s.dl.slots[i].handle .incomplete reason s t ∧ t.reasonSet .downloadFailed = true

/-- A slot is opened for a record (R54, R55): nothing is received, pending or erased, and the tag is that of no busy
slot. -/
def slotOpened (i : Fin 4) (h length tag : Nat) (s t : State) : Prop :=
  TransferSlot.content t.dl.slots[i] =
      ((h, tag, List.replicate ((length + 16383) / 16384) false, []),
        (List.replicate ((length + 65535) / 65536) false, [], none, s.dl.nextXfer))
    ∧ (∀ j : Fin 4, s.dl.slots[j].state ≠ .free → s.dl.slots[j].tag ≠ tag)
    ∧ (∀ j : Fin 4, j ≠ i → TransferSlot.content t.dl.slots[j] = TransferSlot.content s.dl.slots[j])
    ∧ (∀ b : Fin 4, t.dl.buffers[b].map Segment.content = s.dl.buffers[b].map Segment.content)
    ∧ t.dl.tagCounter = stepTag tag ∧ t.dl.nextXfer = s.dl.nextXfer + 1

/-! ### Faults -/

/-- A fault reaches the record (R182, R183): into an empty record with its stamp, else as a further fault; FAULT is posted
for the first and for the events of R183. -/
def faultTaken (kind : FaultKind) (location : Option Nat) (s t : State) : Prop :=
  (s.faults.captured = none →
    t.faults = ⟨some ⟨kind, location, s.keep.seconds, s.keep.valid⟩, false, false⟩ ∧ t.reasonSet .fault = true)
  ∧ ∀ c, s.faults.captured = some c →
    t.faults = ⟨some c, true, s.faults.furtherSevere || kind.severe⟩
      ∧ (s.faults.further = false ∨ (kind.severe = true ∧ s.faults.furtherSevere = false) → t.reasonSet .fault = true)

/-! ### Panel updates -/

/-- The creation orders of the queued updates are distinct, and the next one is new (R120). -/
def ordersGiven (s : State) : Prop :=
  (∀ e ∈ s.panel.queue, e.order < s.panel.nextOrder) ∧ s.panel.queue.Pairwise fun a b => a.order ≠ b.order

/-- An update of the host stands in the queue, or a lane has taken it in (R120, R126, R128). -/
def updateStands (source : Nat) (rect : Rect) (requesters : List Nat) (t : State) : Prop :=
  (∃ e ∈ t.panel.queue, e.origin = .host ∧ e.source = source ∧ e.rect = rect ∧ e.requesters = requesters)
    ∨ ∃ i : Fin 4, t.panel.lanes[i].state = .loading ∧ t.panel.lanes[i].source = source
        ∧ t.panel.lanes[i].rect = rect ∧ t.panel.lanes[i].requesters = requesters

/-- Every request of a list that waits for its reply gets one. -/
def allAnswered (ids : List Nat) (result : Result) (payload : List Byte) (s t : State) : Prop :=
  ∀ id ∈ ids, ∀ o, s.awaiting id = some o → answeredWith o result payload t

/-! ### Entries into DORMANT -/

/-- No lane is busy, the panel supply is OFF and the light is forced dark: the lanes' step of DORMANT entry is done
(R160). -/
def lanesDone (s : State) : Prop :=
  (∀ i : Fin 4, s.panel.lanes[i].state = .idle) ∧ s.panel.supply = .off ∧ s.light.forcedDark = true

/-- Both outputs of the light are 0 beside it: the light's step is done (R160). -/
def lightDone (s : State) : Prop := lanesDone s ∧ s.light.warmOutput = 0 ∧ s.light.coolOutput = 0

/-- The transfers are suspended beside it, and the waiting operations of the Download Engine held back (R72, R160). -/
def transfersHeld (s : State) : Prop :=
  lightDone s ∧ s.dl.suspended = true ∧ (∀ i : Fin 4, s.dl.slots[i].state ≠ .receiving)
    ∧ ∀ op ∈ s.port.waiting, op.job.isDownload = true → op.held = true

/-- The port has granted an operation of the Download Engine (R35, R72). -/
def State.downloadGranted (s : State) : Prop := ∃ job, s.granted = some job ∧ job.isDownload = true

/-- A DORMANT entry in progress stands in a step whose work is not done, with the work of the steps before it (R129,
R160): a lane is busy; or an output of the light is not 0; or an operation of the Download Engine is granted; or the
flush of the entry has not ended. -/
structure entryStands (s : State) : Prop where
  state : s.power.state = .active ∨ s.power.state = .reading
  admission : ∀ e ∈ s.panel.queue, e.admission = none
  step : match s.power.step with
    | some .lanes => ∃ i : Fin 4, s.panel.lanes[i].state ≠ .idle
    | some .light => lanesDone s ∧ (s.light.warmOutput ≠ 0 ∨ s.light.coolOutput ≠ 0)
    | some .transfers => transfersHeld s ∧ s.downloadGranted
    | some .flush => transfersHeld s ∧ ¬s.downloadGranted ∧ s.power.entryFlush = none ∧ s.wb.halted = false
        ∧ ∃ f ∈ s.wb.flushes, f.owner = .dormantEntry
    | _ => False

/-- DORMANT as its entry leaves it, until it ends (R129, R162): no drive lane is busy and no update in admission, both
channel codes are 0, and page memory is in self-refresh. -/
structure dormantStands (s : State) : Prop where
  entry : s.power.entry ≠ some .dormant
  admission : ∀ e ∈ s.panel.queue, e.admission = none
  light : lightDone s
  memory : s.pm.mode = .selfRefresh

/-- The light keeps its claim in an event that places no claim but that of an unload (R42, R144): none is due, the port
that it would claim is not IDLE, or the claim of the sector write, 25, fits beside the light's. -/
def lightKeepsClaim (s : State) : Prop :=
  s.unloadDue = true → s.port.phase = .idle → s.grantedSum + s.power.lightClaim + 25 ≤ s.ceiling

/-- How far DORMANT entry goes in the event in which it begins, by the state before (R160); `waits` is what an entry in
progress leaves of its cause, and `answered` what DORMANT answers it with the end of the flush. Where the claim of an
unload in the event takes the light's allowance, the outputs fall at once (R144): the light's step is still to be done, or
it is done too, and the flush awaits that unload. -/
def entryGoes (waits : State → Prop) (answered : Result → State → Prop) (s t : State) : Prop :=
  let busy := ∃ i : Fin 4, s.panel.lanes[i].state ≠ .idle
  let lit := s.light.warmOutput ≠ 0 ∨ s.light.coolOutput ≠ 0
  let unwritten := s.wb.queue ≠ [] ∨ s.wb.inFlight.isSome = true
  let step := fun e : EntryStep => t.power.entry = some .dormant ∧ t.power.step = some e ∧ entryStands t ∧ waits t
  let reached := fun result => t.power.state = .dormant ∧ t.power.entry = none ∧ dormantStands t ∧ answered result t
  (busy → step .lanes)
    ∧ (¬busy → lit → lightKeepsClaim s → step .light)
    ∧ (¬busy → lit → ¬lightKeepsClaim s → step .light ∨ step .flush)
    ∧ (¬busy → ¬lit → s.downloadGranted → step .transfers)
    ∧ (¬busy → ¬lit → ¬s.downloadGranted → s.wb.halted = true → reached .halted)
    ∧ (¬busy → ¬lit → ¬s.downloadGranted → s.wb.halted = false → unwritten → step .flush)
    ∧ (¬busy → ¬lit → ¬s.downloadGranted → s.wb.halted = false → ¬unwritten → reached .ok)

/-! ### Turns and keys -/

/-- Entries join the host key queue (R96): those that find room in order, and the others are lost. -/
def queuesKeys (entries : List KeyEntry) (s t : State) : Prop :=
  t.turn.keyQueue = s.turn.keyQueue ++ entries.take (8 - s.turn.keyQueue.length)
    ∧ (entries ≠ [] → s.turn.keyQueue.length < 8 → t.reasonSet .keys = true)
    ∧ (entries ≠ [] → 8 < s.turn.keyQueue.length + entries.length → t.reasonSet .keysLost = true)

/-- `n` of the owed turns as entries of the host key queue, with the time of the event (R96, R109). -/
def State.owedEntries (s : State) (n : Nat) (reason : KeyReason) : List KeyEntry :=
  List.replicate n ⟨s.stamp (if 0 < s.turn.owed then .fwd else .back), reason⟩

/-- The lookup of a turn toward a page stops it, with the stop reason and the reason of its press in the host key queue
(R102, R103). -/
def lookupStops (s : State) (page : Nat) (stop : StopReason) (reason : KeyReason) : Prop :=
  s.lookupPage page = none ∧ stop = .miss ∧ reason = .missed
    ∨ (∃ i, s.lookupPage page = some i ∧ s.pm.slots[i].fence = true) ∧ stop = .fence ∧ reason = .fenced

/-- A key event goes where its key and the state of the Turn Engine send it (R95, R96, R98, R103, R105); what a LIGHT
press does is not said here. -/
def keyRouted (event : KeyEvent) (s t : State) : Prop :=
  let queued := fun reason : KeyReason =>
    t.turn = { s.turn with keyQueue := t.turn.keyQueue } ∧ queuesKeys [⟨event, reason⟩] s t
  let forward := event.key = .fwd
  let turns := forward ∨ event.key = .back
  (event.key = .power → queued .power)
    ∧ (turns → s.turn.state = .off ∨ s.turn.state = .pass → queued .passed)
    ∧ (turns → s.turn.state = .stopped → queued .stopped)
    ∧ (turns → s.turn.state = .turning → t.turn = { s.turn with
        owed := if event.key = .fwd then min 3 (s.turn.owed + 1) else max (-3) (s.turn.owed - 1) })
    ∧ (turns → s.turn.state = .ready →
        (forward ∧ 65535 ≤ s.turn.page ∨ ¬forward ∧ s.turn.page = 0 → t.turn = s.turn)
        ∧ ∀ page : Nat, (forward ∧ page = s.turn.page + 1 ∧ s.turn.page < 65535 ∨ ¬forward ∧ s.turn.page = page + 1) →
          (∀ i, s.lookupPage page = some i → s.pm.slots[i].fence = false → t.turn = { s.turn with
              state := .turning
              flight := some ⟨i, page, if event.key = .fwd then .fwd else .back, .key event, false, false, false⟩ })
          ∧ ∀ stop reason, lookupStops s page stop reason →
              t.turn = { s.turn with state := .stopped, reason := some stop, keyQueue := t.turn.keyQueue }
              ∧ queuesKeys [⟨event, reason⟩] s t ∧ t.reasonSet .turnStopped = true)

/-- An engine with a current title stops at a failure (R104, R108, R109): with MISS, unless it stands stopped by EXPIRED
or RETIRING; its owed turns follow `first` into the host key queue. Another engine goes on. -/
def stopsAtFailure (first : List KeyEntry) (s t : State) : Prop :=
  let keeps := s.turn.state = .stopped ∧ (s.turn.reason = some .expired ∨ s.turn.reason = some .retiring)
  (s.turn.state.autonomous = true → t.turn.state = .stopped ∧ t.turn.owed = 0 ∧ t.reasonSet .turnStopped = true
      ∧ (keeps → t.turn.reason = s.turn.reason) ∧ (¬keeps → t.turn.reason = some .miss)
      ∧ queuesKeys (first ++ s.owedEntries s.turn.owed.natAbs .stopped) s t)
    ∧ (s.turn.state.autonomous = false → t.turn.state = s.turn.state ∧ t.turn.owed = s.turn.owed
      ∧ t.turn.reason = s.turn.reason ∧ queuesKeys first s t)

/-- A GO TO PAGE whose turn ends is answered (R113). -/
def turnAnswered (f : TurnFlight) (result : Result) (payload : List Byte) (s t : State) : Prop :=
  ∀ request, f.origin = .goTo request → ∀ o, s.awaiting request = some o → answeredWith o result payload t

/-- The turn in flight fails with a result of its update (R108). `asked` is the slot that the engine last asked to show,
which it gives up. -/
def turnFails (f : TurnFlight) (asked : Option (Fin 28)) (result : Result) (s t : State) : Prop :=
  t.turn.flight = none ∧ t.turn.title = s.turn.title ∧ t.turn.page = s.turn.page
    ∧ t.turn.positions = s.turn.positions ∧ t.turn.trailing = s.turn.trailing
    ∧ t.reasonSet .refill = s.reasonSet .refill
    ∧ t.turn.giveUps = s.turn.giveUps ++ asked.toList ∧ t.turn.lastShow = none
    ∧ stopsAtFailure [] s t ∧ t.power.turnBoost = false ∧ turnAnswered f result [] s t

/-- The show of a turn finds that its slot is READY no more (R104, R113; log 22): the turn ends as one that found no
slot. -/
def showMisses (f : TurnFlight) (s t : State) : Prop :=
  t.turn.flight = none ∧ t.turn.page = s.turn.page ∧ t.turn.giveUps = s.turn.giveUps
    ∧ t.turn.lastShow = s.turn.lastShow ∧ t.pm.slots = s.pm.slots ∧ t.power.turnBoost = false
    ∧ (∀ event, f.origin = .key event → stopsAtFailure [⟨event, .missed⟩] s t)
    ∧ (∀ key, f.origin = .owed key → stopsAtFailure [⟨s.stamp key, .missed⟩] s t)
    ∧ (∀ request, f.origin = .goTo request →
        (s.turn.state = .stopped → t.turn.state = .stopped ∧ t.turn.reason = s.turn.reason)
        ∧ (s.turn.state ≠ .stopped → stopsAtFailure [] s t)
        ∧ ∀ o, s.awaiting request = some o → answeredWith o .sourceGone [] t)

/-- The update of the turn in flight has completed with DONE (R106, R107, R109): the page and its position write, the
trailing release, the refill test, the answer of a GO TO PAGE, and then the state, or one owed turn. -/
def turnSucceeds (f : TurnFlight) (s t : State) : Prop :=
  let title := s.turn.title
  let generation := (s.recordAt title).generation
  let behind := slotIds.filter fun i => s.pm.slots[i].state == .ready && s.pm.slots[i].handle == title
    && decide (s.pm.slots[i].page + s.settings.behindKeep < f.page)
  let ahead := (s.pm.slots.toList.filter fun p => p.state == .ready && p.handle == title
    && p.generation == generation && decide (f.page < p.page)).length
  let owed := s.turn.owed
  let rests := t.turn.flight = none ∧ t.turn.owed = 0 ∧ t.power.turnBoost = false
  let goesOn := t.turn.reason = s.turn.reason ∧ t.turn.keyQueue = s.turn.keyQueue
  t.turn.page = f.page ∧ t.turn.title = title ∧ t.turn.positions = s.turn.positions ++ [⟨title, f.page⟩]
    ∧ t.turn.trailing = s.turn.trailing ++ (if behind = [] then [] else [behind])
    ∧ t.turn.refillArmed = decide (s.settings.refillMark ≤ ahead)
    ∧ (ahead < s.settings.refillMark → s.turn.refillArmed = true → t.reasonSet .refill = true)
    ∧ turnAnswered f .ok (item2 f.page) s t
    ∧ (s.turn.state ≠ .turning → t.turn.state = s.turn.state ∧ t.turn.flight = none ∧ t.turn.owed = owed
        ∧ t.power.turnBoost = false ∧ goesOn)
    ∧ (s.turn.state = .turning → owed = 0 → t.turn.state = .ready ∧ rests ∧ goesOn)
    ∧ (s.turn.state = .turning → owed < 0 ∧ f.page = 0 ∨ 0 < owed ∧ 65535 ≤ f.page →
        t.turn.state = .ready ∧ rests ∧ goesOn)
    ∧ (s.turn.state = .turning → ∀ page : Nat,
        (0 < owed ∧ page = f.page + 1 ∧ f.page < 65535 ∨ owed < 0 ∧ f.page = page + 1 ∧ page ≤ 65535) →
        (∀ i, s.lookupPage page = some i → s.pm.slots[i].fence = false →
          t.turn.state = .turning ∧ t.turn.owed = (if 0 < owed then owed - 1 else owed + 1)
          ∧ t.turn.flight = some ⟨i, page, if 0 < owed then .fwd else .back, .owed (if 0 < owed then .fwd else .back),
              false, false, false⟩
          ∧ t.power.turnBoost = s.power.turnBoost ∧ goesOn)
        ∧ ∀ stop reason, lookupStops s page stop reason →
            t.turn.state = .stopped ∧ t.turn.reason = some stop ∧ rests ∧ t.reasonSet .turnStopped = true
            ∧ queuesKeys (s.owedEntries 1 reason ++ s.owedEntries (owed.natAbs - 1) .stopped) s t)

/-- The title that a record's state leaves stops the Turn Engine that has it as its current title (R23, R110): with the
reason; its owed turns are handed over with the time of the event (R109; log 33). In OFF and PASS, and with another
current title, nothing changes. A show that is still to be taken for a freed slot will fail (R104). -/
def titleStops (h : Nat) (reason : StopReason) (freed : Fin 28 → Prop) (s t : State) : Prop :=
  let turn := { s.turn with flight := t.turn.flight, refillArmed := t.turn.refillArmed }
  let posted := t.reasonSet .turnStopped = true
  (s.turn.flight = none → t.turn.flight = none)
    ∧ (∀ f, s.turn.flight = some f → ∃ lost, t.turn.flight = some { f with lost := lost }
        ∧ (lost = true ↔ f.lost = true ∨ f.shown = false ∧ freed f.slot))
    ∧ (s.turn.title ≠ h ∨ s.turn.state = .off ∨ s.turn.state = .pass → t.turn = turn)
    ∧ (s.turn.title = h → s.turn.state = .ready →
        t.turn = { turn with state := .stopped, reason := some reason } ∧ posted)
    ∧ (s.turn.title = h → s.turn.state = .turning →
        t.turn = { turn with state := .stopped, reason := some reason, owed := 0, keyQueue := t.turn.keyQueue } ∧ posted
        ∧ queuesKeys (List.replicate s.turn.owed.natAbs ⟨t.stamp (if 0 < s.turn.owed then .fwd else .back), .stopped⟩) s t)
    ∧ (s.turn.title = h → s.turn.state = .stopped → t.turn = { turn with reason := some reason } ∧ posted)

/-- The reads of a record that wait and are not granted are withdrawn and answered; the others stand (R15). -/
def readsWithdrawn (h : Nat) (result : Result) (s t : State) : Prop :=
  let content := fun r : TitleRead => (r.request, r.handle, r.piecesLeft, r.bytes)
  t.cat.reads.map content = (s.cat.reads.filter fun r => !(r.handle == h && !r.granted)).map content
    ∧ ∀ r ∈ s.cat.reads, r.handle = h → r.granted = false → allAnswered [r.request] result [] s t
        ∧ ∀ op ∈ t.port.waiting, ∀ address length, op.job ≠ .titleRead r.request address length

/-- The slot is FILLING or READY and names the title. -/
def State.slotHeldFor (s : State) (h : Nat) (i : Fin 28) : Prop :=
  (s.pm.slots[i].state = .filling ∨ s.pm.slots[i].state = .ready) ∧ s.pm.slots[i].handle = h

/-- What reaches the neighbours of a record that enters EXPIRED or RETIRING (R23): its FILLING and READY slots are
freed, and with them the queued updates from their frames (R86); the Turn Engine stops; its transfer ends (R22, R26,
R70); its waiting reads are withdrawn (R15). What the Turn Engine does is not said where a TURN update goes with a freed
slot. -/
structure neighboursTold (h : Nat) (reason : StopReason) (s t : State) : Prop where
  freed : ∀ i : Fin 28, s.slotHeldFor h i → t.pm.slots[i] = PageSlot.blank
  kept : ∀ i : Fin 28, ¬s.slotHeldFor h i → t.pm.slots[i] = s.pm.slots[i]
  updates : ∀ i : Fin 28, s.slotHeldFor h i → ∀ e ∈ s.panel.queue, e.source = i.val + 4 →
    allAnswered e.requesters .sourceGone [] s t ∧ ∀ q ∈ t.panel.queue, q.source ≠ i.val + 4
  turning : (∀ i : Fin 28, s.slotHeldFor h i → ∀ e ∈ s.panel.queue, e.source = i.val + 4 → e.origin = .host) →
    titleStops h reason (s.slotHeldFor h) s t
  transfer : ∀ i : Fin 4, (s.recordAt h).state = .fetching → s.slotOf h = some i → transferEnds i s t
  reads : readsWithdrawn h (if reason = .expired then .expired else .wrongState) s t

/-- The TURN update of a shown slot stands in the queue, or a lane has taken it in (R104, R126, R128). -/
def turnUpdateStands (i : Fin 28) (hint : ModeHint) (order : Nat) (t : State) : Prop :=
  let mode := match hint with
    | .grey16 => Mode.grey16
    | .clear => .clear
  (∃ e ∈ t.panel.queue, e.origin = .turn ∧ e.source = i.val + 4 ∧ e.rect = ⟨0, 0, 1680, 1248⟩ ∧ e.mode = mode
      ∧ e.noPromote = false ∧ e.order = order ∧ e.requesters = [])
    ∨ ∃ j : Fin 4, t.panel.lanes[j].state = .loading ∧ t.panel.lanes[j].origin = .turn
        ∧ t.panel.lanes[j].source = i.val + 4 ∧ t.panel.lanes[j].rect = ⟨0, 0, 1680, 1248⟩
        ∧ (t.panel.lanes[j].mode = mode ∨ t.panel.lanes[j].mode = .clear) ∧ t.panel.lanes[j].requesters = []

/-! ### The rebuild -/

/-- Two extents have no block in common. -/
def Extent.apart (a b : Extent) : Prop := a.start + a.count ≤ b.start ∨ b.start + b.count ≤ a.start

/-- The block belongs to the extent. -/
def Extent.has (e : Extent) (block : Nat) : Prop := e.start ≤ block ∧ block < e.start + e.count

/-- The rebuild takes the slot of a handle by the first row of its table that fits (R50): the record, the block
conditions, the release list and the faults. Nothing else changes. -/
def slotRebuilt (h : Nat) (s t : State) : Prop :=
  let last := 8 + s.blocks.size.titleBlocks
  let becomes := fun (p : Persisted) (revision : Revision) (dirty : Bool) =>
    t.recordAt h = { toPersisted := { p with revision := revision }, holds := 0, dirty := dirty }
  let emptied := fun revision dirty => becomes Persisted.blank revision dirty ∧ t.blocks = s.blocks
  t = { s with
      cat.records := t.cat.records
      blocks.conditions := t.blocks.conditions
      blocks.releaseList := t.blocks.releaseList
      faults := t.faults
      link.attention := t.link.attention }
    ∧ (∀ g, g ≠ h → t.recordAt g = s.recordAt g)
    ∧ (s.readSlot h = none → emptied 0 true
        ∧ (s.firstUnreadable h = true → faultTaken .catalogueSlot (some (sectorOf h)) s t)
        ∧ (s.firstUnreadable h = false → t.faults = s.faults))
    ∧ (∀ p, s.readSlot h = some p → p.state = .empty → emptied p.revision false ∧ t.faults = s.faults)
    ∧ ∀ p, s.readSlot h = some p → p.state ≠ .empty →
      let taken := ∃ g, 1 ≤ g ∧ g < h ∧ (s.recordAt g).state ≠ .empty ∧ (s.recordAt g).key = p.key
      let cut := p.extents.any fun e => decide (e.start < 8) || decide (last < e.start + e.count)
      let within := (p.extents.map fun e =>
        (⟨max 8 e.start, min last (e.start + e.count) - max 8 e.start⟩ : Extent)).filter fun e => decide (0 < e.count)
      let q := if cut then
          { p with
            extents := within
            state := if p.state = .retiring then .retiring else .incomplete
            fetch := .reset }
        else p
      let clash := (∃ e ∈ q.extents, ∃ n, e.has (8 + n) ∧ s.blocks.conditions[n]? ≠ some .free)
        ∨ ¬q.extents.Pairwise Extent.apart
      (taken → emptied (p.revision + 1) true ∧ faultTaken .catalogueConflict (some h) s t)
        ∧ (¬taken → cut = true → within = [] →
            emptied (p.revision + 1) true ∧ faultTaken .extentRange (some h) s t)
        ∧ (¬taken → (cut = true → within ≠ []) →
            ∃ u : State, u.keep = s.keep ∧ (cut = true → faultTaken .extentRange (some h) s u)
              ∧ (cut = false → u.faults = s.faults)
              ∧ (clash → emptied (p.revision + 1) true ∧ faultTaken .catalogueConflict (some h) u t)
              ∧ (¬clash → t.faults = u.faults
                ∧ (q.state = .retiring → becomes Persisted.blank (p.revision + 1) true
                    ∧ t.blocks.conditions = fillExtents (.releasing (sectorOf h)) q.extents s.blocks.conditions
                    ∧ t.blocks.releaseList = s.blocks.releaseList ++ q.extents.map fun e => ⟨e, sectorOf h, none⟩)
                ∧ (q.state ≠ .retiring →
                    t.blocks.conditions = fillExtents (.owned h) q.extents s.blocks.conditions
                    ∧ t.blocks.releaseList = s.blocks.releaseList)
                ∧ (q.state = .fetching →
                    becomes { q with state := .incomplete, fetch := .reset } (p.revision + 1) true)
                ∧ (q.state ≠ .retiring → q.state ≠ .fetching →
                    becomes q (if cut then p.revision + 1 else p.revision) cut)))

/-- The rebuild takes the 16 slots of a sector in order (R50). -/
def sectorRebuilt (sector : Nat) (s t : State) : Prop :=
  ∃ u : Nat → State, u 0 = s ∧ (∀ k, k < 16 → slotRebuilt (16 * sector + k + 1) (u k) (u (k + 1))) ∧ u 16 = t

/-! ### Request numbers -/

/-- The request that a turn in flight answers. -/
def TurnOrigin.requests : TurnOrigin → List Nat
  | .goTo request => [request]
  | .key _ | .owed _ => []

/-- The request behind an entry's cause. -/
def EntryCause.requests : EntryCause → List Nat
  | .enterDormant request | .enterShelf request => [request.id]
  | _ => []

/-- The request behind a held wake. -/
def Wake.requests : Wake → List Nat
  | .resume request => [request.id]
  | _ => []

/-- The request behind a flush. -/
def FlushOwner.requests : FlushOwner → List Nat
  | .host request => [request]
  | _ => []

/-- The request that a flash operation answers. -/
def FlashJob.requests : FlashJob → List Nat
  | .settingsWrite request _ | .waveformWrite request _ | .titleRead request _ _ => [request]
  | _ => []

/-- The request of the operation that has the port. -/
def PortPhase.requests : PortPhase → List Nat
  | .idle => []
  | .claiming op | .busy op => op.job.requests

/-- The requests that the owning blocks hold for a reply have numbers in `N`. -/
structure HoldsOnly (N : Nat → Prop) (s : State) : Prop where
  reads : ∀ r ∈ s.cat.reads, N r.request
  held : ∀ w ∈ s.pm.held, N w.request
  queue : ∀ e ∈ s.panel.queue, ∀ n ∈ e.requesters, N n
  lanes : ∀ i : Fin 4, ∀ n ∈ s.panel.lanes[i].requesters, N n
  flight : ∀ f ∈ s.turn.flight, ∀ n ∈ f.origin.requests, N n
  change : ∀ c ∈ s.turn.change, N c.request
  flushes : ∀ f ∈ s.wb.flushes, ∀ n ∈ f.owner.requests, N n
  waiting : ∀ op ∈ s.port.waiting, ∀ n ∈ op.job.requests, N n
  phase : ∀ n ∈ s.port.phase.requests, N n
  dormant : ∀ c ∈ s.power.dormantCauses, ∀ n ∈ c.requests, N n
  shelf : ∀ c ∈ s.power.shelfCauses, ∀ n ∈ c.requests, N n
  heldShelf : ∀ r ∈ s.power.heldShelf, N r.id
  heldWake : ∀ w ∈ s.power.heldWake, ∀ n ∈ w.requests, N n

/-- Every request that is outstanding or that a block holds has a number that the port has given. -/
def numbersGiven (s : State) : Prop := numbersFresh s ∧ HoldsOnly (· < s.link.nextId) s

/-- The request that the end of a flash operation answers by itself: a title read answers the read that it is a piece
of. -/
def FlashJob.ownRequests : FlashJob → List Nat
  | .settingsWrite request _ | .waveformWrite request _ => [request]
  | _ => []

/-- The numbers of the requests that the owning blocks hold, one for each holder (R194). The pieces of a title read are no
holders of their own: their read is. -/
def State.heldNumbers (s : State) : List Nat :=
  s.cat.reads.map (·.request) ++ s.pm.held.map (·.request) ++ s.panel.queue.flatMap (·.requesters)
    ++ s.panel.lanes.toList.flatMap (·.requesters) ++ s.turn.flight.toList.flatMap (·.origin.requests)
    ++ s.turn.change.toList.map (·.request) ++ s.wb.flushes.flatMap (·.owner.requests)
    ++ s.portOps.flatMap (·.job.ownRequests) ++ s.power.dormantCauses.flatMap EntryCause.requests
    ++ s.power.shelfCauses.flatMap EntryCause.requests ++ s.power.heldShelf.toList.map (·.id)
    ++ s.power.heldWake.toList.flatMap Wake.requests

/-- No request number is held twice: each request waits at one holder for its one reply (R194, R196). -/
def numbersApart (s : State) : Prop := s.heldNumbers.Nodup

/-! ### Invariants -/

/-- A SHELF entry in progress still waits for its flush: its end is acted on in the event that brings it (R164). -/
def shelfWaits (s : State) : Prop := s.power.entry = some .shelf → s.power.shelfFlush = none

/-- A SHELF entry stands in DORMANT: it begins there, and what ends DORMANT ends it (R158, R162, R164). -/
def shelfInDormant (s : State) : Prop := s.power.entry = some .shelf → s.power.state = .dormant

/-- The output lines stand as their conditions say (R63, R202). -/
def linesFollow (s : State) : Prop := s.pins = ⟨s.attnCondition, s.rrdyCondition⟩

/-- The request table of the port (R194, R196): at most 8 requests are outstanding, no two of them with one tag or one
number, and the replied ones are those whose replies are queued. No request number is held twice; an update that a request
merges into is one entry of the queue, since no two have one creation order (R120, R121). -/
def requestsSound (s : State) : Prop :=
  numbersGiven s ∧ numbersApart s ∧ ordersGiven s ∧ s.link.outstanding.length ≤ 8
    ∧ s.link.outstanding.Pairwise (fun a b => a.tag ≠ b.tag ∧ a.id ≠ b.id)
    ∧ (s.link.replies.map (·.tag)).Perm ((s.link.outstanding.filter (·.replied)).map (·.tag))

/-- The busy lanes are apart from one another, at most one entry is in admission, and it overlaps no busy lane and no
entry ahead of it in admission order (R124, R127, R132). -/
def updatesApart (s : State) : Prop :=
  (∀ i j : Fin 4, i ≠ j → s.panel.lanes[i].state ≠ .idle → s.panel.lanes[j].state ≠ .idle →
      s.panel.lanes[i].rect.overlaps s.panel.lanes[j].rect = false)
    ∧ (s.panel.queue.Pairwise fun a b => a.admission = none ∨ b.admission = none)
    ∧ (∀ e ∈ s.panel.queue, e.admission.isSome = true → ∀ i : Fin 4, s.panel.lanes[i].state ≠ .idle →
        s.panel.lanes[i].rect.overlaps e.rect = false)
    ∧ (admissionOrder s.panel.queue).Pairwise fun a e => e.admission.isSome = true → a.rect.overlaps e.rect = false

/-- The TURN updates that are queued or driven. -/
def State.turnUpdates (s : State) : Nat :=
  (s.panel.queue.filter fun e => e.origin == .turn).length
    + (s.panel.lanes.toList.filter fun l => l.state != .idle && l.origin == .turn).length

/-- The Turn Engine's state goes with its title, pass-through and the turn in flight, and its reason with STOPPED (the
tables of section 5.3); one TURN update is under way where a show has been made for the turn in flight, and none else
(R120). -/
structure turnsSound (s : State) : Prop where
  state : match s.turn.state with
    | .off => s.turn.title = 0 ∧ s.turn.passThrough = false ∧ s.turn.flight = none
    | .ready => s.turn.title ≠ 0 ∧ s.turn.passThrough = false ∧ s.turn.flight = none
    | .turning => s.turn.title ≠ 0 ∧ s.turn.passThrough = false ∧ s.turn.flight.isSome = true
    | .stopped => s.turn.title ≠ 0 ∧ s.turn.passThrough = false
    | .pass => s.turn.passThrough = true ∧ (s.turn.title = 0 → s.turn.flight = none)
  reason : s.turn.reason.isSome = true ↔ s.turn.state = .stopped
  updates : s.turnUpdates = match s.turn.flight with
    | some f => if f.shown then 1 else 0
    | none => 0

/-- The queues and counts keep to their limits: the update queue (R120), the host key queue (R96), the owed turns (R105),
the sectors that wait for write-back (R40), the holds of a title (R20) and the ghost counts (R130); the updates under way
are apart, and those of the Turn Engine are its turn in flight's. -/
def countsSound (s : State) : Prop :=
  ordersGiven s ∧ (s.panel.queue.filter fun e => e.origin == .host).length ≤ 15 ∧ s.panel.queue.length ≤ 16
    ∧ turnsSound s
    ∧ s.turn.keyQueue.length ≤ 8 ∧ -3 ≤ s.turn.owed ∧ s.turn.owed ≤ 3
    ∧ (s.wb.queue.Pairwise fun a b => a.sector ≠ b.sector) ∧ (∀ h, (s.recordAt h).holds ≤ 15)
    ∧ s.panel.ghost.length = 195 ∧ (∀ n ∈ s.panel.ghost, n ≤ s.settings.ghostLimit) ∧ updatesApart s

/-- The rectangle ends within the 1680 pixels of a row (R77). -/
def Rect.fitsRow (r : Rect) : Prop := r.x + r.w ≤ 1680

/-- The byte memories are in canonical form: page memory, the title blocks of flash and what the lanes have loaded. The
rectangles that are still to be read or written end within a row. -/
def memoriesSound (s : State) : Prop :=
  Memory.wf s.pm.cells ∧ Memory.wf s.flash.title
    ∧ (∀ i : Fin 4, Memory.wf s.panel.lanes[i].newPixels ∧ Memory.wf (s.panel.lanes[i].oldPixels.getD [])
        ∧ s.panel.lanes[i].rect.fitsRow)
    ∧ (∀ e ∈ s.panel.queue, e.rect.fitsRow) ∧ ∀ w ∈ s.pm.held, w.rect.fitsRow

/-! ### The shared resources -/

/-- What the light's targets are (R143, R144): the codes of the intensity and the warmth, clamped to the allowance. -/
def lightAims (s : State) : Prop :=
  let q := fun a b : Nat => (a * b + 16384) / 32768
  let base := s.settings.levelCurve.getD s.light.level 0
  let auto := if s.light.auto then q base s.light.factor else base
  let dim := if s.light.dimmed then q auto s.settings.dimFactor else auto
  let masked := if s.light.maskCount ≠ 0 ∧ s.settings.masking = true then q dim s.settings.maskFactor else dim
  let cap := match s.power.band with
    | .normal => s.settings.capNormal
    | .low => s.settings.capLow
    | .critical => s.settings.capCritical
    | .exhausted => s.settings.capExhausted
  let lit := s.light.switch && !s.light.timedOff && !s.light.forcedDark
  let warm := if lit then q (min masked cap) s.light.warmth / 32 else 0
  let cool := if lit then q (min masked cap) (32767 - s.light.warmth) / 32 else 0
  let limit := s.light.allowance * 1023 / 25
  (warm + cool ≤ limit → s.light.warmTarget = warm ∧ s.light.coolTarget = cool)
    ∧ (limit < warm + cool → s.light.warmTarget = warm * limit / (warm + cool)
        ∧ s.light.coolTarget = cool * limit / (warm + cool))

/-- What the rules of the shared resources leave after every event: nothing that could be chosen, granted or placed waits,
and what follows from other values has followed. -/
structure resourcesSettled (s : State) : Prop where
  /-- R35: an IDLE port has only operations waiting that are held back. -/
  port : s.port.phase = .idle → ∀ op ∈ s.port.waiting, op.held = true
  /-- R172, R173: the head waiting claim does not fit. -/
  head : ∀ c ∈ s.power.waiting.head?, s.ceiling < s.grantedSum + s.power.lightClaim + c.units
  /-- R124, R125: where no entry is in admission, none is admissible. -/
  panel : s.awake = true → s.panel.halted = false → (∀ e ∈ s.panel.queue, e.admission = none) →
    (∃ i : Fin 4, s.panel.lanes[i].state = .idle) →
    s.power.clock = .full ∨ (∀ i : Fin 4, s.panel.lanes[i].state = .idle) →
    ∀ ahead e later, admissionOrder s.panel.queue = ahead ++ e :: later →
      (∃ a ∈ ahead, a.rect.overlaps e.rect = true)
        ∨ ∃ i : Fin 4, s.panel.lanes[i].state ≠ .idle ∧ s.panel.lanes[i].rect.overlaps e.rect = true
  /-- R176: the boost has a claim in READING while a mark is raised, and only then. -/
  boost : (∃ c ∈ s.power.granted ++ s.power.waiting, c.owner = .boost) ↔
    s.power.state = .reading ∧ (s.power.turnBoost = true ∨ s.power.downloadBoost = true)
  /-- R175: the clock rate by the power state, the boost and the busy lanes. -/
  clock : s.power.clock = match s.power.state with
    | .bringup | .active => .full
    | .dormant | .shelf => .economy
    | .reading =>
      if (∃ c ∈ s.power.granted, c.owner = .boost)
          ∨ 2 ≤ (s.panel.lanes.toList.filter fun l => l.state != .idle).length then .full
      else .economy
  /-- R150: the mask count. -/
  mask : s.light.maskCount = (s.panel.lanes.toList.filter fun l => l.state == .driving && l.mode == .clear).length
  /-- R173: the allowance. -/
  allowance : s.light.allowance = s.ceiling - s.grantedSum - (s.power.waiting.head?.map (·.units)).getD 0
  /-- R143, R144: the targets. -/
  aims : lightAims s
  /-- R144, R145: the light claim by its formula (log 74), within the allowance. -/
  claim : s.power.lightClaim = ((max s.light.warmOutput s.light.warmTarget + max s.light.coolOutput s.light.coolTarget) * 25
      + 1022) / 1023 ∧ s.power.lightClaim ≤ s.light.allowance
  /-- R75: the Power Controller has the report of the transfers. -/
  transfers : s.power.transfersActive = s.anyTransfer
  /-- R74: the download boost's mark stands over an occupied segment buffer. -/
  download : s.power.downloadBoost = true → ∃ i : Fin 4, s.dl.buffers[i].isSome = true
  /-- R159: a dormant delay that has run out waits in READING for the transfers that are active. -/
  deferred : s.power.dormantDelay = .deferred →
    s.power.state = .reading ∧ s.power.entry = none ∧ s.anyTransfer = true
  /-- R160: a DORMANT entry in progress waits for the work of its step. -/
  entry : s.power.entry = some .dormant → entryStands s
  /-- R162: DORMANT as its entry leaves it. -/
  dormant : s.power.state = .dormant → dormantStands s
  /-- R146: the ramp timer runs while an output differs from its target, and only then. -/
  ramp : s.light.ramp.isRunning = true ↔
    s.light.warmOutput ≠ s.light.warmTarget ∨ s.light.coolOutput ≠ s.light.coolTarget

/-! ### The catalogue and what names its records -/

/-- Every title block is free, in the extents of one record, or in one entry of the release list (R30, R32, R33). -/
structure blocksSound (s : State) : Prop where
  size : s.blocks.conditions.length = s.blocks.size.titleBlocks
  empty : ∀ h, (s.recordAt h).state = .empty → (s.recordAt h).extents = []
  within : ∀ h, ∀ e ∈ (s.recordAt h).extents,
    8 ≤ e.start ∧ 1 ≤ e.count ∧ e.start + e.count ≤ 8 + s.blocks.conditions.length
  released : ∀ r ∈ s.blocks.releaseList,
    8 ≤ r.extent.start ∧ 1 ≤ r.extent.count ∧ r.extent.start + r.extent.count ≤ 8 + s.blocks.conditions.length
  apart : (∀ h, (s.recordAt h).extents.Pairwise Extent.apart)
    ∧ s.blocks.releaseList.Pairwise fun a b => a.extent.apart b.extent
  conditions : ∀ n c, s.blocks.conditions[n]? = some c →
    (∀ h, (∃ e ∈ (s.recordAt h).extents, e.has (8 + n)) ↔ c = BlockCondition.owned h)
      ∧ (∀ sector, (∃ r ∈ s.blocks.releaseList, r.sector = sector ∧ r.extent.has (8 + n))
          ↔ c = BlockCondition.releasing sector)

/-- A page slot in FILLING or READY names a READY record with its generation, at most one slot is SHOWN, and no identity
stands twice (R79). The SHOWN slot names the current title and is that of the last show, or a give-up of it has been sent;
its title is READY, EXPIRED or RETIRING, or, where a flash image has held it READY without DONE (R50, R19), INCOMPLETE or
FETCHING. The slot of a show that is still to be taken, not freed since, names the current title, or its give-up
follows (log 21). -/
structure pageSlotsSound (s : State) : Prop where
  ready : ∀ i : Fin 28, s.pm.slots[i].state = .filling ∨ s.pm.slots[i].state = .ready →
    (s.recordAt s.pm.slots[i].handle).state = .ready
      ∧ s.pm.slots[i].generation = (s.recordAt s.pm.slots[i].handle).generation
  shown : ∀ i j : Fin 28, s.pm.slots[i].state = .shown → s.pm.slots[j].state = .shown → i = j
  identity : ∀ i j : Fin 28, s.pm.slots[i].state ≠ .free → s.pm.slots[j].state ≠ .free →
    s.pm.slots[i].identity = s.pm.slots[j].identity → i = j
  current : ∀ i : Fin 28, s.pm.slots[i].state = .shown →
    s.pm.slots[i].handle = s.turn.title ∧ s.turn.lastShow = some i ∨ i ∈ s.turn.giveUps
  title : ∀ i : Fin 28, s.pm.slots[i].state = .shown →
    let r := s.recordAt s.pm.slots[i].handle
    r.state = .ready ∨ r.state = .expired ∨ r.state = .retiring
      ∨ r.fetch ≠ .done ∧ (r.state = .incomplete ∨ r.state = .fetching)
  asked : ∀ f, s.turn.flight = some f → f.shown = false → f.lost = false →
    s.pm.slots[f.slot].state = .ready ∧ (s.pm.slots[f.slot].handle = s.turn.title ∨ f.giveUp = true)

/-- The bring-up reads that wait at the port or run. -/
def State.bringupReads (s : State) : List BringupRead :=
  s.portOps.filterMap fun op => match op.job with
    | .bringupRead what => some what
    | _ => none

/-- Bring-up has one read at a time, and the records that it has still to take are EMPTY; no entry is in progress, and
no slot of another block is in use yet (R190). -/
structure bringUpSound (s : State) : Prop where
  one : s.bringupReads.length ≤ 1
  reads : ∀ what ∈ s.bringupReads, s.power.state = .bringup ∧ match what with
    | .settings => s.power.bringup = .settings ∧ ∀ h, (s.recordAt h).state = .empty
    | .waveforms => s.power.bringup = .waveforms ∧ ∀ h, (s.recordAt h).state = .empty
    | .sector n => s.power.bringup = .rebuild ∧ ∀ h, 16 * n < h → (s.recordAt h).state = .empty
  quiet : s.power.state = .bringup → s.power.entry = none
    ∧ (∀ i : Fin 4, s.dl.slots[i].state = .free) ∧ ∀ i : Fin 28, s.pm.slots[i].state = .free

/-- The laws between the catalogue and what names its records. -/
structure catalogueSound (s : State) : Prop where
  /-- R2: no key stands in two records that are not EMPTY. -/
  keys : ∀ g h, (s.recordAt g).state ≠ .empty → (s.recordAt h).state ≠ .empty →
    (s.recordAt g).key = (s.recordAt h).key → g = h
  /-- R7: a record is FETCHING exactly when a transfer slot names it. -/
  fetching : ∀ h, (s.recordAt h).state = .fetching ↔ ∃ i : Fin 4, s.dl.slots[i].state ≠ .free ∧ s.dl.slots[i].handle = h
  /-- R7: no two busy transfer slots name one record or carry one tag. -/
  transfers : ∀ i j : Fin 4, s.dl.slots[i].state ≠ .free → s.dl.slots[j].state ≠ .free →
    s.dl.slots[i].handle = s.dl.slots[j].handle ∨ s.dl.slots[i].tag = s.dl.slots[j].tag → i = j
  /-- R25: once the rebuild has formed it, the expiry list holds in order the records that expire. -/
  expiries : s.power.state ≠ .bringup ∨ s.power.bringup = .pageMemory →
    (∀ h, h ∈ s.cat.expiryList ↔ (s.recordAt h).state.expires = true ∧ (s.recordAt h).expiry.isSome = true)
      ∧ s.cat.expiryList.Pairwise fun a b => s.expiresBefore a b = true
  blocks : blocksSound s
  slots : pageSlotsSound s
  bringUp : bringUpSound s

end Sys2Proof.Machine
end

