-- ==== Sys2Proof/Certificates/Slice0/Obligations.lean ====
section
/-! DEFINITION. The statements about the RFJ640 model, as propositions for the provers. -/

open Sys2Proof Sys2Proof.Machine

/-! ### Steps -/

/-- A step takes the command at the front of the queue and runs it on the queue's rest. On an empty queue a millisecond
passes (the model's choice, logs 8 and 66): the sub-second count waits at 999 for the step of the count, the elapsed
count of write-back runs after bring-up (R40), the residency runs in READING under a granted boost (R176), the running
timers lose 1, and everything else stays as it is; or, after an accepted RESTART, the part is reset as by PART_RESET
with a free battery sample (R200; log 35). -/
def Obligations.StepRunsFrontCommand : Prop :=
  (∀ (c : Instr) (rest : List Instr) (s : State), s.pending = c :: rest → step s = exec c { s with pending := rest })
  ∧ ∀ s : State, s.pending = [] →
    let keep := if s.keep.powered then { s.keep with milliseconds := min 999 (s.keep.milliseconds + 1) } else s.keep
    let tick := fun x : Timer => match x with
      | .running n => Timer.running (n - 1)
      | .stopped => .stopped
    (s.powered = false → step s = .next { s with keep := keep })
    ∧ (s.powered = true → s.link.restart = true → step s =
        exec (.partReset ⟨Config.resetSample s.freeCount, s.power.charger⟩) { s with freeCount := s.freeCount + 1 })
    ∧ (s.powered = true → s.link.restart = false → ∃ t, step s = .next t
        ∧ t = { s with
            keep := keep
            wb.elapsed := if s.power.state = .bringup then s.wb.elapsed else s.wb.elapsed + 1
            dl.slots := t.dl.slots
            panel.offDelay := tick s.panel.offDelay
            light.autoDim := tick s.light.autoDim
            light.lightOff := tick s.light.lightOff
            light.ramp := tick s.light.ramp
            power.dormantDelay := t.power.dormantDelay
            power.critical := tick s.power.critical
            power.residency :=
              if s.power.state = .reading ∧ s.power.granted.any (fun c => c.owner == .boost) = true then
                min 4294967295 (s.power.residency + 1)
              else s.power.residency }
        ∧ (∀ i : Fin 4, t.dl.slots[i] = { s.dl.slots[i] with
            deadline := match s.dl.slots[i].deadline with
              | .running n => .running (n - 1)
              | d => d })
        ∧ t.power.dormantDelay = match s.power.dormantDelay with
          | .running n => .running (n - 1)
          | d => d)

/-- R35, R124, R125, R129, R143 to R146, R150, R160, R162, R172, R173, R175 and R176: what every step leaves of the
shared resources, from any state in which it stands so. An IDLE port has no operation to choose, the head waiting claim
does not fit, no update that could be admitted is left out, the boost has its claim while a mark is raised in READING,
and the clock, the mask count, the allowance, the targets, the light's claim and the ramp timer follow from the rest. A
DORMANT entry in progress stands in a step whose work is not done, with the work of the steps before it: a lane is busy;
or the supply is OFF and the light, forced dark, falls; or the transfers are suspended and an operation of theirs is
granted; or the entry's flush has not ended. In DORMANT no lane is busy, no update is in admission, both channel codes
are 0 and page memory is in self-refresh. A step grants claims only within the ceiling. R74, R75, R159: the Power
Controller has the report of the transfers, the mark of the download boost stands over an occupied segment buffer, and a
deferred dormant delay waits in READING for transfers that are active. The light's claim is that of R145's formula, also
where it exceeds the range 0..25 of the tables: the model's choice (log 74). -/
def Obligations.StepsSettleTheResources : Prop :=
  ∀ s t : State, resourcesSettled s → step s = .next t → resourcesSettled t
    ∧ (t.power.granted.Sublist s.power.granted ∨ t.grantedSum + t.power.lightClaim ≤ t.ceiling)

/-! ### Frames at the host link -/

/-- R193: the first check that fails gives the immediate status, and the frame has no effect but that status. In SHELF and
without the main supply the port has no power. No reset of a RESTART is due. -/
def Obligations.RefusedFrameGivesOnlyItsStatus : Prop :=
  ∀ (code : RequestCode) (f : Frame) (flips : List WordFlip) (s : State),
    let good := Frame.crcGood code.toNat f && Frame.flagsGood f
    let ready := s.power.state ≠ .bringup ∨ code = .status
    (s.powered = false → exec (code.command f flips) s = .next s)
      ∧ (s.powered = true → s.link.restart = false →
          (good = false → exec (code.command f flips) s = .next (onlyStatus .frameError f s))
          ∧ (good = true → ¬ready → exec (code.command f flips) s = .next (onlyStatus .starting f s))
          ∧ (good = true → ready → code.inline = false → 8 ≤ s.link.outstanding.length →
              exec (code.command f flips) s = .next (onlyStatus .busy f s))
          ∧ (good = true → ready → code.inline = false → s.link.outstanding.length < 8 →
              (∃ o ∈ s.link.outstanding, o.tag = f.tag) →
              exec (code.command f flips) s = .next (onlyStatus .tagInUse f s)))

/-- R166 and R195: what the port answers for an accepted request before the request's own checks. Nothing but the link
and its lines changes. R195 for the in-line requests: their answer is OUT_OF_RANGE without a payload, and nothing else
comes of it. R193: a request that the port hands to its owner is accepted; its immediate status carries the counts that
the event leaves, 0 and 0 too where an ENTER SHELF has reached SHELF (log 72, the model's choice). That EXPECT_REVISION
is tested before the length is the model's reading (log 26, DEDUCED); the lengths of WRITE WAVEFORMS and of a WRITE
PIXELS of an odd number of pixels are its choice (logs 61 and 62). -/
def Obligations.TakenFramesAreAnswered : Prop :=
  (∀ (code : RequestCode) (f : Frame) (flips : List WordFlip) (s : State),
    s.powered = true → s.link.restart = false → s.refusal code f = none → code.inline = false → numbersFresh s →
    let asleep := s.asleep = true ∧ code.takenAsleep = false
    (asleep → exec (code.command f flips) s = .next (repliedOnly code f .asleep [] s))
      ∧ (¬asleep → Frame.expects f = true → code.isChange = false →
          exec (code.command f flips) s = .next (repliedOnly code f .outOfRange [] s))
      ∧ (¬asleep → (Frame.expects f = true → code.isChange = true) → code.lengthGood (Frame.body f) = false →
          exec (code.command f flips) s = .next (repliedOnly code f .outOfRange [] s)))
  ∧ (∀ (code : RequestCode) (f : Frame) (flips : List WordFlip) (s : State),
    s.powered = true → s.link.restart = false → s.refusal code f = none → code.inline = true →
    Frame.expects f = true ∨ code.lengthGood (Frame.body f) = false →
    exec (code.command f flips) s = .next (answeredInline f ⟨f.tag, some code, .outOfRange, []⟩ false s))
  ∧ (∀ (code : RequestCode) (f : Frame) (flips : List WordFlip) (s : State), takes code f s → code.inline = false →
    ∃ t, exec (code.command f flips) s = .next t
      ∧ t.link.out = .answer ⟨.accepted, f.tag, t.link.outstanding.length, t.link.replies.length⟩ none)

/-- R192 and check 2 of R193: a transaction that ends before a frame does has no effect: it gives no status, but
FRAME_ERROR bytes where its eight header bytes are no good header, by the sync byte, the tag, the length and the header
check. An unknown code gives UNKNOWN_REQUEST where the frame check is good. No reset of a RESTART is due. -/
def Obligations.FramesWithoutARequest : Prop :=
  ∀ s : State, s.powered = true → s.link.restart = false →
    (∀ (bytes : List Byte) (c : Instr), c = .shortTransaction bytes ∨ c = .badHeader bytes →
      let good := bytes.getD 0 0 = 0x4A ∧ (bytes.getD 2 0).toNat ≤ 15
        ∧ leNat [bytes.getD 4 0, bytes.getD 5 0] ≤ 16384
        ∧ leNat [bytes.getD 6 0, bytes.getD 7 0] = (crc16 (bytes.take 6)).toNat
      (8 ≤ bytes.length → ¬good → exec c s = .next { s with link.fetching := false, link.out := .frameErrors })
      ∧ (bytes.length < 8 ∨ good → exec c s = .next { s with link.fetching := false, link.out := .silent }))
    ∧ ∀ code f, exec (.unknownRequest code f) s =
        .next (onlyStatus (if Frame.crcGood code.toNat f && Frame.flagsGood f then .unknownRequest else .frameError) f s)

/-- R198: STATUS answers and changes nothing. R197: the answer to FETCH REPLY is the oldest reply, or the header of an
empty fetch; the reply stays queued until it has been clocked out, and then leaves with its tag. The model's choice
(log 10): REPLY_FETCHED without a fetch under way changes nothing. -/
def Obligations.StatusAndFetchReply : Prop :=
  (∀ (f : Frame) (s : State), takesInline .status f s →
    exec (.status f) s = .next (refreshPins (answeredInline f ⟨f.tag, some .status, .ok, statusPayload s⟩ false s)))
  ∧ ((∀ (f : Frame) (s : State), takesInline .fetchReply f s → s.link.replies = [] →
    exec (.fetchReply f) s = .next (refreshPins (answeredInline f ⟨0, none, .ok, []⟩ false s)))
  ∧ (∀ (f : Frame) (s : State) (r : Reply) (rest : List Reply), takesInline .fetchReply f s →
    s.link.replies = r :: rest → exec (.fetchReply f) s = .next (refreshPins (answeredInline f r true s)))
  ∧ (∀ (s : State) (r : Reply) (rest : List Reply), s.powered = true → s.link.fetching = true →
    s.link.replies = r :: rest →
    exec .replyFetched s = .next (refreshPins { s with
      link.replies := rest
      link.outstanding := s.link.outstanding.filter fun o => !(o.tag == r.tag && o.replied)
      link.fetching := false }))
  ∧ ∀ s : State, s.link.fetching = false → exec .replyFetched s = .next s)

/-- R201: ACK ATTENTION removes the named reasons, KEYS only while the host key queue is empty, and answers the set that
is left. -/
def Obligations.AckAttentionRemovesNamedReasons : Prop :=
  ∀ (f : Frame) (s : State) (named : ReasonSet), takesInline .ackAttention f s → field f.payload 0 2 = named.toNat →
    ∃ t, exec (.ackAttention f) s = .next t
      ∧ (∀ r : Reason, t.reasonSet r = (s.reasonSet r
          && !(named.getLsbD r.index && !(decide (r = .keys) && !s.turn.keyQueue.isEmpty))))
      ∧ t = refreshPins (answeredInline f ⟨f.tag, some .ackAttention, .ok, item2 t.link.attention.toNat⟩ false
          { s with link.attention := t.link.attention })

/-- R199: RESET LINK discards the replies, detaches every request in progress and frees every tag; the rest of the state
is kept, and the lines follow; that the answer's two counts are 0 is the model's choice (log 24). R200: RESTART is
accepted without a reply; the part reset that it asks for stands when the next transaction begins, whose frame is then
taken by the part in BRINGUP (log 35: the battery sample of that reset is a free value). -/
def Obligations.ResetLinkAndRestart : Prop :=
  (∀ (f : Frame) (s : State), takesInline .resetLink f s →
    exec (.resetLink f) s = .next (refreshPins (answeredInline f ⟨f.tag, some .resetLink, .ok, [0, 0]⟩ false
      { s with link.replies := [], link.outstanding := [] })))
  ∧ (∀ (f : Frame) (s : State), shelfWaits s → takes .restart f s →
    ∃ t, exec (.restart f) s = .next t ∧ t.link.restart = true ∧ keptBut [.port] s t
      ∧ (s.power.entry = none → waits .restart f s t))
  ∧ ∀ s : State, s.powered = true → s.link.restart = true →
    ∃ r, exec (.partReset ⟨Config.resetSample s.freeCount, s.power.charger⟩) { s with freeCount := s.freeCount + 1 }
        = .next r
      ∧ r.powered = true ∧ r.power.state = .bringup ∧ r.link.restart = false
      ∧ (∀ (code : RequestCode) (f : Frame) (flips : List WordFlip),
          exec (code.command f flips) s = exec (code.command f flips) r)
      ∧ (∀ (code : Byte) (f : Frame), exec (.unknownRequest code f) s = exec (.unknownRequest code f) r)
      ∧ ∀ bytes : List Byte, exec (.shortTransaction bytes) s = exec (.shortTransaction bytes) r
          ∧ exec (.badHeader bytes) s = exec (.badHeader bytes) r

/-! ### Lookups -/

/-- R11: FIND TITLE answers the one non-EMPTY record that holds the key, NOT_FOUND for key 0 or a key that none holds. It
and the other read requests of the catalogue are taken in DORMANT too. -/
def Obligations.FindTitleAnswersTheHolder : Prop :=
  (∀ code ∈ [RequestCode.findTitle, .readTitleRecord, .listTitles, .readTitleBytes], code.takenAsleep = true) ∧
  ∀ (f : Frame) (s : State) (key : TitleKey), takes .findTitle f s → numbersFresh s →
    field (Frame.body f) 0 8 = key.toNat →
    let holds := fun h => 1 ≤ h ∧ h ≤ 1024 ∧ (s.recordAt h).state ≠ .empty ∧ (s.recordAt h).key = key
    ((key = 0 ∨ ∀ h, ¬holds h) → exec (.findTitle f) s = .next (repliedOnly .findTitle f .notFound [] s))
    ∧ ∀ h, key ≠ 0 → holds h → (∀ g, holds g → g = h) →
      exec (.findTitle f) s = .next (repliedOnly .findTitle f .ok
        (item2 h ++ item1 (s.recordAt h).state.toNat ++ item2 (s.recordAt h).revision.toNat) s)

/-- R12 and R58: READ TITLE RECORD answers the fields of a record, and READ TRANSFER those of the transfer slot that
names it; BAD_HANDLE outside 1..1024, WRONG_STATE where no slot names the record. R13: LIST TITLES answers the summaries
of the first 32 non-EMPTY records from a handle on, in ascending order, or of those with a tag, and the handle to go on
from, 0 at the end. R89, R115, R139, R154, R179, R184 and R188: the read requests without operands answer at once with
the items of their block, and change nothing else. The items of READ PANEL and READ POWER name requests by tag, their
own among the outstanding ones. The layouts are the model's choice where the rules leave them open: the items of log 24,
the word that carries the word sum (log 18), an IDLE lane (log 50), the held writes of a frame (log 56), the codes of a
light that is not lit (log 57), the flash size in force (log 59), the number of the entry's step (log 60), the location
of a fault that has none (log 70) and the absent extents of an EMPTY record (log 75). A filter whose presence byte is 0
is absent whatever its byte is: the model's choice too (log 73). -/
def Obligations.ReadRequestsChangeNothing : Prop :=
  (∀ (f : Frame) (s : State), numbersFresh s →
    let h := field (Frame.body f) 0 2
    (takes .readTitleRecord f s →
      (validHandle h = true → exec (.readTitleRecord f) s =
        .next (repliedOnly .readTitleRecord f .ok (recordPayload h (s.recordAt h)) s))
      ∧ (validHandle h = false → exec (.readTitleRecord f) s = .next (repliedOnly .readTitleRecord f .badHandle [] s)))
    ∧ (takes .readTransfer f s →
      (validHandle h = false → exec (.readTransfer f) s = .next (repliedOnly .readTransfer f .badHandle [] s))
      ∧ (validHandle h = true → (∀ i : Fin 4, s.dl.slots[i].state ≠ .free → s.dl.slots[i].handle ≠ h) →
          exec (.readTransfer f) s = .next (repliedOnly .readTransfer f .wrongState [] s))
      ∧ ∀ i : Fin 4, validHandle h = true → s.dl.slots[i].state ≠ .free → s.dl.slots[i].handle = h →
          (∀ j : Fin 4, s.dl.slots[j].state ≠ .free → s.dl.slots[j].handle = h → j = i) →
          exec (.readTransfer f) s = .next (repliedOnly .readTransfer f .ok (transferItems s.dl.slots[i]) s)))
  ∧ (∀ (f : Frame) (s : State) (filter : Option Nat), takes .listTitles f s → numbersFresh s →
    optionField (Frame.body f) 2 1 = some filter →
    let start := field (Frame.body f) 0 2
    (validHandle start = false → exec (.listTitles f) s = .next (repliedOnly .listTitles f .badHandle [] s))
    ∧ (validHandle start = true → ∃ (taken : List Nat) (next : Nat),
        exec (.listTitles f) s = .next (repliedOnly .listTitles f .ok
          (itemList (taken.map fun h => summaryItem h (s.recordAt h)) ++ item2 next) s)
        ∧ taken.Pairwise (· < ·)
        ∧ (∀ h ∈ taken, start ≤ h ∧ h ≤ 1024 ∧ s.listed filter h = true)
        ∧ (taken.length < 32 → next = 0 ∧ ∀ h, start ≤ h → h ≤ 1024 → s.listed filter h = true → h ∈ taken)
        ∧ taken.length ≤ 32
        ∧ (taken.length = 32 → ∀ last, taken.getLast? = some last →
            next = (if last < 1024 then last + 1 else 0)
            ∧ ∀ h, start ≤ h → h ≤ last → s.listed filter h = true → h ∈ taken)))
  ∧ (∀ (f : Frame) (s : State), numbersFresh s →
    (takes .readSlots f s → exec (.readSlots f) s = .next (repliedOnly .readSlots f .ok
        (readSlotsItems s) s))
    ∧ (takes .readTurnState f s → exec (.readTurnState f) s = .next (repliedOnly .readTurnState f .ok (turnItems s) s))
    ∧ (takes .readPanel f s → exec (.readPanel f) s = .next (repliedOnly .readPanel f .ok
        (panelItems (accept .readPanel f (endFetch s))) s))
    ∧ (takes .readLight f s → exec (.readLight f) s = .next (repliedOnly .readLight f .ok (lightItems s) s))
    ∧ (takes .readPower f s → exec (.readPower f) s = .next (repliedOnly .readPower f .ok
        (powerItems (accept .readPower f (endFetch s))) s))
    ∧ (takes .readFault f s → exec (.readFault f) s = .next (repliedOnly .readFault f .ok
        (faultItems s.faults ++ itemFlag s.wb.halted ++ itemFlag s.panel.halted) s))
    ∧ (takes .readSettings f s → exec (.readSettings f) s = .next (repliedOnly .readSettings f .ok
        (item1 s.blocks.size.toNat ++ itemFlag s.settingsGood ++ itemFlag s.waveform.builtin
          ++ workingImage s.settings s.storedSize) s)))

/-! ### Changes of title records -/

/-- R4, R16 to R22: a change request that fails a check is refused with the check's result and the record's revision, and
changes nothing but the link. The handle is checked first, then the expected revision, the state and the limits. -/
def Obligations.ChangeChecksInOrder : Prop :=
  ∀ (code : RequestCode) (f : Frame) (flips : List WordFlip) (s : State),
    takes code f s → numbersFresh s → code.isChange = true → (code = .setExpiry → field (Frame.body f) 2 1 < 2) →
    let h := field (Frame.body f) 0 2
    let r := s.recordAt h
    let refused := fun result => exec (code.command f flips) s = .next (repliedOnly code f result (item2 r.revision.toNat) s)
    (validHandle h = false → exec (code.command f flips) s = .next (repliedOnly code f .badHandle [] s))
    ∧ (validHandle h = true → (∃ v, Frame.revision f = some v ∧ v ≠ r.revision) → refused .staleRevision)
    ∧ (changeStands f s →
        (code ≠ .releaseTitle → code ≠ .holdTitle → r.state = .empty ∨ r.state = .retiring → refused .wrongState)
        ∧ (code = .holdTitle → r.state = .expired → refused .expired)
        ∧ (code = .holdTitle → r.state ≠ .expired → r.state ≠ .ready → refused .wrongState)
        ∧ (code = .holdTitle → r.state = .ready → 15 ≤ r.holds → refused .holdLimit)
        ∧ (code = .releaseTitle → (r.holds = 0 ∨ r.holds = 1 ∧ s.turn.title = h) → refused .notHeld))

/-- R16 and R17: SET POSITION and SET TAG give the record the new value; the revision rises by 1 where the value is new
(R3), and the reply carries it. -/
def Obligations.SetPositionAndTag : Prop :=
  ∀ (f : Frame) (s : State), numbersFresh s → changeStands f s →
    let h := field (Frame.body f) 0 2
    let p := (s.recordAt h).toPersisted
    p.state ≠ .empty → p.state ≠ .retiring →
    (takes .setPosition f s →
      let q := { p with position := field (Frame.body f) 2 2 }
      ∃ t, exec (.setPosition f) s = .next t ∧ recordBecomes h q s t
        ∧ replies .setPosition f .ok (item2 (revised p q).revision.toNat) s t ∧ keptBut [.port, .titles] s t)
    ∧ (takes .setTag f s →
      let q := { p with tag := field (Frame.body f) 2 1 }
      ∃ t, exec (.setTag f) s = .next t ∧ recordBecomes h q s t
        ∧ replies .setTag f .ok (item2 (revised p q).revision.toNat) s t ∧ keptBut [.port, .titles] s t)

/-- R18 and R87: SET LAYOUT GENERATION gives the record the new generation. Where it is new, the FILLING and READY slots
of the title with another generation are freed, and no other slot. -/
def Obligations.SetLayoutGenerationFreesStaleSlots : Prop :=
  ∀ (f : Frame) (s : State), numbersGiven s → changeStands f s → takes .setLayoutGeneration f s →
    let h := field (Frame.body f) 0 2
    let p := (s.recordAt h).toPersisted
    let q := { p with generation := field (Frame.body f) 2 1 }
    p.state ≠ .empty → p.state ≠ .retiring →
    ∃ t, exec (.setLayoutGeneration f) s = .next t ∧ recordBecomes h q s t
      ∧ hasReply .setLayoutGeneration f .ok (item2 (revised p q).revision.toNat) t
      ∧ (∀ i : Fin 28, t.pm.slots[i] =
          if q ≠ p ∧ (s.pm.slots[i].state = .filling ∨ s.pm.slots[i].state = .ready) ∧ s.pm.slots[i].handle = h
              ∧ s.pm.slots[i].generation ≠ q.generation then PageSlot.blank
          else s.pm.slots[i])
      ∧ keptBut [.port, .titles, .slots, .turning, .attention] s t

/-- R20 and R21: HOLD TITLE raises the hold count of a READY record by 1, and RELEASE TITLE lowers it by 1; neither
changes the revision. The checks that a hold count of 0 allows are left out here. -/
def Obligations.HoldsAreCounted : Prop :=
  ∀ (f : Frame) (s : State), numbersFresh s → changeStands f s →
    let h := field (Frame.body f) 0 2
    let r := s.recordAt h
    (takes .holdTitle f s → r.state = .ready → r.holds < 15 →
      ∃ t, exec (.holdTitle f) s = .next t
        ∧ (t.recordAt h).toPersisted = r.toPersisted ∧ (t.recordAt h).holds = r.holds + 1 ∧ titlesBut h s t
        ∧ replies .holdTitle f .ok (item1 (r.holds + 1) ++ item2 r.revision.toNat) s t
        ∧ keptBut [.port, .titles] s t)
    ∧ (takes .releaseTitle f s → 2 ≤ r.holds ∨ (r.holds = 1 ∧ s.turn.title ≠ h ∧ r.state ≠ .retiring
          ∧ (r.state = .expired → s.settings.retireOnExpiry = false)) →
      ∃ t, exec (.releaseTitle f) s = .next t
        ∧ (t.recordAt h).toPersisted = r.toPersisted ∧ (t.recordAt h).holds = r.holds - 1 ∧ titlesBut h s t
        ∧ replies .releaseTitle f .ok (item1 (r.holds - 1) ++ item2 r.revision.toNat) s t
        ∧ keptBut [.port, .titles] s t)

/-- R19: SET EXPIRY gives the record the expiry and its place in the expiry list. A record that is not EXPIRED and is not
due keeps its state; an EXPIRED record is restored to READY or INCOMPLETE, unless the new expiry is due. The expiries
that other records have reached are left out here: none is listed as due. An expiry whose presence byte is 0 is absent
whatever its bytes are: the model's choice (log 73). -/
def Obligations.SetExpiryPlacesAndRestores : Prop :=
  ∀ (f : Frame) (s : State) (expiry : Option Nat), numbersFresh s → changeStands f s → takes .setExpiry f s →
    optionField (Frame.body f) 2 4 = some expiry →
    (∀ g ∈ s.cat.expiryList, s.keep.valid = true → s.keep.seconds < (s.recordAt g).expiry.getD 0) →
    let h := field (Frame.body f) 0 2
    let p := (s.recordAt h).toPersisted
    let due := s.keep.valid = true ∧ ∃ e, expiry = some e ∧ e ≤ s.keep.seconds
    p.state ≠ .empty → p.state ≠ .retiring → (p.state ≠ .expired → ¬due) →
    let q := { p with
      expiry := expiry
      state := if p.state = .expired ∧ ¬due then (if p.fetch = .done then .ready else .incomplete) else p.state }
    ∃ t, exec (.setExpiry f) s = .next t ∧ recordBecomes h q s t
      ∧ replies .setExpiry f .ok (item2 (revised p q).revision.toNat) s t
      ∧ (h ∈ t.cat.expiryList ↔ expiry.isSome = true ∧ q.state ≠ .expired ∨ p.state = .expired ∧ due ∧ h ∈ s.cat.expiryList)
      ∧ (∀ g, g ≠ h → (g ∈ t.cat.expiryList ↔ g ∈ s.cat.expiryList))
      ∧ keptBut [.port, .titles, .expiries] s t

/-- R15, R22, R23, R24, R86, R110: RETIRE TITLE makes the record RETIRING, with its revision raised by 1, takes it off the
expiry list and frees its FILLING and READY slots with the queued updates from their frames; the Turn Engine stops where
the title is its current one, the transfer of a FETCHING record ends, and the reads of the record that wait are withdrawn.
Where no hold and no SHOWN slot keeps it, retirement completes in the same event: the record is EMPTY with its revision
raised by 2, and TITLE_RETIRED is posted. That the reply carries the revision at the end of the event and nothing else is
the model's choice (log 43), and the time of the owed turns that the Turn Engine hands over is its reading (log 33,
DEDUCED). No request number is held twice, as every step keeps it (StepsKeepTheRequestTable). -/
def Obligations.RetireTitleLeavesTheRecord : Prop :=
  ∀ (f : Frame) (s : State), numbersGiven s → numbersApart s → changeStands f s → takes .retireTitle f s →
    let h := field (Frame.body f) 0 2
    let r := s.recordAt h
    let stays := r.holds ≠ 0 ∨ ∃ i : Fin 28, s.pm.slots[i].state = .shown ∧ s.pm.slots[i].handle = h
    r.state ≠ .empty → r.state ≠ .retiring →
    ∃ t, exec (.retireTitle f) s = .next t
      ∧ (stays →
          (t.recordAt h).toPersisted = { r.toPersisted with
            state := .retiring
            fetch := if r.state = .fetching then .cancelled else r.fetch
            revision := r.revision + 1 }
          ∧ hasReply .retireTitle f .ok (item2 (r.revision + 1).toNat) t)
      ∧ (¬stays →
          (∀ i : Fin 4, s.dl.slots[i].state ≠ .free → s.dl.slots[i].handle = h →
            r.state = .fetching ∧ s.slotOf h = some i) →
          (t.recordAt h).toPersisted = { Persisted.blank with revision := r.revision + 1 + 1 }
          ∧ t.reasonSet .titleRetired = true
          ∧ hasReply .retireTitle f .ok (item2 (r.revision + 1 + 1).toNat) t)
      ∧ h ∉ t.cat.expiryList ∧ titlesBut h s t ∧ neighboursTold h .retiring s t
      ∧ keptBut [.port, .titles, .expiries, .slots, .reads, .transfers, .blocks, .turning, .attention] s t

/-- R21, R24, R28, R88, R91: what keeps a record in RETIRING ends. The release of the last hold of a RETIRING record that
no slot names, and the loss of the last page slot that names a RETIRING record without holds, complete its retirement: a
SHOWN slot is lost by the give-up that the Turn Engine has sent, by the show of another slot, or by a load that finds it
uncorrectable, and a FILLING or READY one, which R79 excludes, by FREE SLOT. The record is EMPTY with its revision raised
by 1, its extents are RELEASING behind its catalogue sector, and TITLE_RETIRED is posted. With retirement on expiry on,
the release of the last hold of an EXPIRED record retires it first, and the revision rises by 2. Which slots a give-up
names, and in which order give-ups are taken, are the model's reading (log 21, DEDUCED). -/
def Obligations.LastHoldCompletesRetirement : Prop :=
  ∀ (f : Frame) (s : State), numbersGiven s →
    (takes .releaseTitle f s → changeStands f s →
      let h := field (Frame.body f) 0 2
      let r := s.recordAt h
      r.holds = 1 → s.turn.title ≠ h → (∀ i : Fin 28, s.pm.slots[i].state ≠ .free → s.pm.slots[i].handle ≠ h) →
      (∀ i : Fin 4, s.dl.slots[i].state ≠ .free → s.dl.slots[i].handle ≠ h) →
      (r.state = .retiring → ∃ t, exec (.releaseTitle f) s = .next t ∧ retirementCompletes h 1 s t
        ∧ replies .releaseTitle f .ok (item1 0 ++ item2 (r.revision + 1).toNat) s t
        ∧ keptBut [.port, .titles, .blocks, .attention] s t)
      ∧ (r.state = .expired → s.settings.retireOnExpiry = true → ∃ t, exec (.releaseTitle f) s = .next t
        ∧ retirementCompletes h 2 s t ∧ h ∉ t.cat.expiryList
        ∧ hasReply .releaseTitle f .ok (item1 0 ++ item2 (r.revision + 1 + 1).toNat) t
        ∧ keptBut [.port, .titles, .expiries, .reads, .blocks, .attention] s t))
    ∧ (takes .freeSlot f s → ∀ i : Fin 28, field (Frame.body f) 0 1 = i.val →
      let p := s.pm.slots[i]
      let h := p.handle
      p.state = .filling ∨ p.state = .ready → validHandle h = true → (s.recordAt h).state = .retiring →
      (s.recordAt h).holds = 0 → (∀ j : Fin 28, j ≠ i → s.pm.slots[j].state ≠ .free → s.pm.slots[j].handle ≠ h) →
      (∀ j : Fin 4, s.dl.slots[j].state ≠ .free → s.dl.slots[j].handle ≠ h) →
      ∃ t, exec (.freeSlot f) s = .next t ∧ retirementCompletes h 1 s t
        ∧ t.pm.slots = s.pm.slots.set i PageSlot.blank ∧ hasReply .freeSlot f .ok [] t
        ∧ keptBut [.port, .titles, .blocks, .slots, .turning, .attention] s t)
    ∧ (shelfWaits s → s.powered = true → ∀ i : Fin 28,
      let p := s.pm.slots[i]
      let h := p.handle
      p.state = .shown → validHandle h = true → (s.recordAt h).state = .retiring → (s.recordAt h).holds = 0 →
      (∀ j : Fin 28, j ≠ i → s.pm.slots[j].state ≠ .free → s.pm.slots[j].handle ≠ h) →
      (∀ j : Fin 4, s.dl.slots[j].state ≠ .free → s.dl.slots[j].handle ≠ h) →
      let freed := s.pm.slots.set i PageSlot.blank
      (∀ rest, s.turn.giveUps = i :: rest → ∃ t, exec .giveUpShownSlot s = .next t ∧ retirementCompletes h 1 s t
        ∧ t.pm.slots = freed ∧ keptBut [.titles, .blocks, .slots, .turning, .attention] s t)
      ∧ (∀ g, s.turn.flight = some g → g.shown = false → g.lost = false → s.pm.slots[g.slot].state = .ready →
          s.panel.halted = false → (∀ j : Fin 28, s.pm.slots[j].state = .shown → j = i) →
        ∃ t, exec .showSlot s = .next t ∧ retirementCompletes h 1 s t
        ∧ t.pm.slots = freed.set g.slot { s.pm.slots[g.slot] with state := .shown }
        ∧ keptBut [.titles, .blocks, .slots, .turning, .ghosts, .attention] s t)
      ∧ ∀ (j : Fin 4) (zeroFirst correctedFirst : Bool),
        let l := s.panel.lanes[j]
        l.state = .loading → l.source = i.val + 4 → (∀ w ∈ s.pm.held, w.frame ≠ l.source) →
        s.settings.reportCorrected = false → s.loadErrors l.source l.rect .double = true →
        l.mode = .clear ∨ s.loadErrors 0 l.rect .double = false →
        ∃ t, exec (.laneLoadEnd j ⟨[], zeroFirst, correctedFirst⟩) s = .next t ∧ retirementCompletes h 1 s t
        ∧ t.pm.slots = freed ∧ faultTaken .pageMemory (some l.source) s t
        ∧ keptBut [.titles, .blocks, .slots, .turning, .faults, .attention] s t)

/-- R14: READ TITLE BYTES is refused by its checks in order, or cut at every 4096-byte boundary into pieces, which stand
at the flash port in order of offset, each in class 2 with its flash address and length (R34); the reply comes with the
last piece. R14: the end of a piece adds its bytes to the read, and the last piece answers it with OK and all of them.
R35, R36: the port, IDLE again, then chooses the oldest operation of the lowest class among those that are not held
back, and its claim stands with it. -/
def Obligations.ReadTitleBytesComesInPieces : Prop :=
  (∀ (f : Frame) (s : State), shelfWaits s → numbersFresh s → takes .readTitleBytes f s →
    let h := field (Frame.body f) 0 2
    let offset := field (Frame.body f) 2 4
    let length := field (Frame.body f) 6 2
    let r := s.recordAt h
    let fits := 1 ≤ length ∧ length ≤ 16384 ∧ offset + length ≤ r.declaredLength.getD 0
    let refused := fun result => exec (.readTitleBytes f) s = .next (repliedOnly .readTitleBytes f result [] s)
    (validHandle h = false → refused .badHandle)
    ∧ (validHandle h = true → r.state = .expired → refused .expired)
    ∧ (validHandle h = true → r.state ≠ .expired → r.state ≠ .ready → refused .wrongState)
    ∧ (validHandle h = true → r.state = .ready → ¬fits → refused .outOfRange)
    ∧ (validHandle h = true → r.state = .ready → fits →
        let count := (offset + length - 1) / 4096 - offset / 4096 + 1
        let first := fun k => max offset (4096 * (offset / 4096 + k))
        let last := fun k => min (offset + length) (4096 * (offset / 4096 + k + 1))
        let placed : List FlashOp := (List.range count).map fun k =>
          ⟨2, false, .titleRead s.link.nextId (titleAddress r.extents (first k)) (last k - first k)⟩
        ∃ t, exec (.readTitleBytes f) s = .next t
          ∧ t.cat.reads.map (fun q => (q.request, q.handle, q.piecesLeft, q.bytes))
              = s.cat.reads.map (fun q => (q.request, q.handle, q.piecesLeft, q.bytes))
                ++ [(s.link.nextId, h, count, [])]
          ∧ placed.Sublist t.portOps
          ∧ (s.power.entry = none → waits .readTitleBytes f s t)
          ∧ keptBut [.port, .reads] s t))
  ∧ (∀ (s : State) (cls request address length : Nat) (r : TitleRead), shelfWaits s → s.powered = true →
    s.port.phase = .busy ⟨cls, false, .titleRead request address length⟩ →
    s.cat.reads.find? (fun q => q.request == request) = some r →
    let bytes := r.bytes ++ s.flash.bytes address length
    (2 ≤ r.piecesLeft → ∃ t, exec .titleReadPieceEnd s = .next t
      ∧ t.cat.reads.map (fun q => (q.request, q.handle, q.piecesLeft, q.bytes)) = s.cat.reads.map (fun q =>
          if q.request = request then (q.request, q.handle, q.piecesLeft - 1, bytes)
          else (q.request, q.handle, q.piecesLeft, q.bytes))
      ∧ keptBut [.reads] s t)
    ∧ (r.piecesLeft ≤ 1 → ∃ t, exec .titleReadPieceEnd s = .next t
      ∧ (∀ q ∈ t.cat.reads, q.request ≠ request)
      ∧ (∀ o, s.awaiting request = some o → answeredWith o .ok bytes t)
      ∧ keptBut [.reads] s t))
  ∧ ∀ (s : State) (cls request address length : Nat), s.powered = true → s.power.entry = none →
    (s.power.dormantDelay = .deferred → s.anyTransfer = true) → s.unloadDue = false →
    s.port.phase = .busy ⟨cls, false, .titleRead request address length⟩ → (∀ c ∈ s.power.waiting, c.owner ≠ .port) →
    ((∀ op ∈ s.port.waiting, op.held = true) → ∃ t, exec .titleReadPieceEnd s = .next t
      ∧ t.port = ⟨.idle, s.port.waiting⟩)
    ∧ ∀ older op younger, s.port.waiting = older ++ op :: younger → op.held = false →
        (∀ q ∈ older, q.held = true ∨ op.cls < q.cls) → (∀ q ∈ younger, q.held = true ∨ op.cls ≤ q.cls) →
        ∃ t, exec .titleReadPieceEnd s = .next t ∧ t.port.waiting = older ++ younger
          ∧ (t.port.phase = .busy op ∧ ⟨.port, op.job.units⟩ ∈ t.power.granted
            ∨ t.port.phase = .claiming op ∧ ⟨.port, op.job.units⟩ ∈ t.power.waiting)

/-! ### Write-back -/

/-- R46, R47, R48: FLUSH CATALOGUE is answered HALTED while write-back is halted and OK while nothing is unwritten; else
it waits, and with no sector in flight the unload of the oldest entry begins in its event (R42, R43). R42 and R43:
when the oldest entry has waited the write-back delay, its unload begins, unless write-back is halted or a sector is
in flight (log 9). The model's choice (log 10): on an empty queue WRITE_BACK_DELAY_EXPIRY changes nothing. -/
def Obligations.UnloadsBeginOnFlushAndDelay : Prop :=
  (∀ (f : Frame) (s : State), numbersFresh s → takes .flushCatalogue f s →
    (s.wb.halted = true → ∃ t, exec (.flushCatalogue f) s = .next t
      ∧ replies .flushCatalogue f .halted [] s t ∧ keptBut [.port] s t)
    ∧ (s.wb.halted = false → s.wb.queue = [] → s.wb.inFlight = none → ∃ t, exec (.flushCatalogue f) s = .next t
      ∧ replies .flushCatalogue f .ok [] s t ∧ keptBut [.port] s t)
    ∧ (s.wb.halted = false → s.wb.queue ≠ [] ∨ s.wb.inFlight.isSome = true → ∃ t, exec (.flushCatalogue f) s = .next t
      ∧ waits .flushCatalogue f s t ∧ keptBut [.port] s t
      ∧ ∀ head rest, s.wb.inFlight = none → s.wb.queue = head :: rest →
          t.wb.inFlight = some ⟨head.sector, head.created, s.wb.nextWrite⟩ ∧ t.wb.queue = rest))
  ∧ (∀ s : State, shelfWaits s → s.powered = true → s.power.state ≠ .bringup →
    (s.wb.queue = [] → exec .writeBackDelayExpiry s = .next s)
    ∧ ∀ head rest, s.wb.queue = head :: rest →
      ∃ t, exec .writeBackDelayExpiry s = .next t ∧ keptBut [.writeBack] s t ∧ t.wb.halted = s.wb.halted
        ∧ (s.wb.halted = false → s.wb.inFlight = none →
            t.wb.inFlight = some ⟨head.sector, head.created, s.wb.nextWrite⟩ ∧ t.wb.queue = rest))

/-- R44 and R45: the end of the sector write in flight. On success the sector holds its snapshot and the release entries
that it covers give their blocks up as FREE. On failure FLASH_WRITE is reported, the sector is unwritten again, and
write-back halts if a severe fault was held already. What a failed write leaves in flash is a free value (log 13). R47 and
R164: where it is the last write that the flush of a SHELF entry awaits, SHELF is reached in the event: the marker is set,
the main domain is off and flash holds the sector. Where the failure halts write-back, the SHELF entry stops in DORMANT,
BATTERY is posted, and its requests are answered HALTED; one that EXHAUSTED has caused is due again (R171). What the main
domain holds while it has no power is the model's choice (log 29), and that an entry may have several causes is its
reading (log 28, DEDUCED). A wake that is held then ends DORMANT in the event, on success too where EXHAUSTED is no cause:
SHELF is not reached and the requests are answered CANCELLED. The charger's attach during an entry of the CRITICAL timer
or EXHAUSTED stops it on success, in DORMANT, with the same answer; a held wake then ends DORMANT too; that only an attach
in that entry counts is the model's reading (log 27, DEDUCED). A SHELF entry stands in DORMANT, as every step keeps it
(StepsKeepTheLines). -/
def Obligations.SectorWriteEnds : Prop :=
  (∀ (s : State) (cls sector number : Nat) (snapshot : List Persisted) (w : InFlight), shelfWaits s → s.powered = true →
    s.port.phase = .busy ⟨cls, false, .sectorWrite sector number snapshot⟩ → s.wb.inFlight = some w →
    snapshot.length = 16 → (∀ fl ∈ s.wb.flushes, fl.owner ≠ .shelfEntry) →
    (∃ t, exec (.sectorWriteEnd true) s = .next t
      ∧ (∀ i : Fin 1024, t.flash.slots[i] = match (if i.val / 16 = sector then snapshot[i.val % 16]? else none) with
          | some p => .whole p
          | none => s.flash.slots[i])
      ∧ t.flash = { s.flash with slots := t.flash.slots }
      ∧ t.blocks.conditions = fillExtents .free
          ((s.blocks.releaseList.filter fun e => e.cover == some w.number).map (·.extent)) s.blocks.conditions
      ∧ (∀ e ∈ t.blocks.releaseList, ∃ o ∈ s.blocks.releaseList, o.cover ≠ some w.number ∧ o.extent = e.extent)
      ∧ t.wb.halted = s.wb.halted
      ∧ keptBut [.flash, .blocks, .unwritten] s t)
    ∧ ∃ t, exec (.sectorWriteEnd false) s = .next t
      ∧ faultTaken .flashWrite (some w.sector) s t
      ∧ t.unwritten w.sector
      ∧ t.wb.halted = (s.wb.halted || s.faults.holdsSevere)
      ∧ (∀ i : Fin 1024, i.val / 16 ≠ sector → t.flash.slots[i] = s.flash.slots[i])
      ∧ t.flash = { s.flash with slots := t.flash.slots }
      ∧ keptBut [.flash, .faults, .attention, .writeBack] s t)
  ∧ ∀ (s : State) (cls sector number : Nat) (snapshot : List Persisted) (w : InFlight), shelfInDormant s →
    s.powered = true → s.port.phase = .busy ⟨cls, false, .sectorWrite sector number snapshot⟩ → s.wb.inFlight = some w →
    snapshot.length = 16 → s.power.entry = some .shelf → s.power.shelfFlush = none →
    s.wb.flushes = [⟨.shelfEntry, [.write w.number]⟩] →
    let exhausted := EntryCause.exhausted ∈ s.power.shelfCauses
    let spared := s.power.attached = true ∧ (exhausted ∨ EntryCause.criticalTimer ∈ s.power.shelfCauses)
    let requests := (shelfRequests s.power.shelfCauses s.power.heldShelf).map (·.id)
    let awake := fun k => match k with
      | Wake.resume _ => PowerState.active
      | _ => .reading
    let woken := fun (k : Wake) (t : State) => t.power.state = awake k ∧ t.power.entry = none ∧ t.power.heldWake = none
      ∧ t.power.heldShelf = none ∧ t.power.shelfCauses = [] ∧ ∀ r, k = .resume r → allAnswered [r.id] .ok [] s t
    let written := fun t : State => t.flash = { s.flash with slots := t.flash.slots }
      ∧ ∀ i : Fin 1024, t.flash.slots[i] = match (if i.val / 16 = sector then snapshot[i.val % 16]? else none) with
          | some p => .whole p
          | none => s.flash.slots[i]
    (¬spared → s.power.heldWake = none ∨ exhausted → ∃ t, exec (.sectorWriteEnd true) s = .next t
      ∧ t.power.state = .shelf
      ∧ t.powered = false ∧ t.pins = ⟨false, false⟩ ∧ t.pm.mode = .off
      ∧ t.keep = { s.keep with shelfMarker := true, powered := s.keep.powered && s.supplies.backup }
      ∧ written t
      ∧ t.link.outstanding = [] ∧ t.link.replies = [] ∧ ∀ h, (t.recordAt h).state = .empty)
    ∧ (∀ k, s.power.heldWake = some k → ¬exhausted ∨ spared → requestsSound s →
      ∃ t, exec (.sectorWriteEnd true) s = .next t
      ∧ woken k t ∧ written t ∧ allAnswered requests .cancelled [] s t)
    ∧ (spared → s.power.heldWake = none → ∃ t, exec (.sectorWriteEnd true) s = .next t
      ∧ t.power.state = s.power.state ∧ t.power.entry = none ∧ t.power.heldShelf = none ∧ t.power.shelfCauses = []
      ∧ written t ∧ allAnswered requests .cancelled [] s t
      ∧ keptBut [.flash, .blocks, .unwritten, .heldWakes, .shelfEntry] s t)
    ∧ (∀ k, s.power.heldWake = some k → s.faults.holdsSevere = true → requestsSound s →
      ∃ t, exec (.sectorWriteEnd false) s = .next t
      ∧ woken k t ∧ t.wb.halted = true ∧ t.reasonSet .battery = true ∧ allAnswered requests .halted [] s t)
    ∧ (s.power.heldWake = none → s.faults.holdsSevere = true → ∃ t, exec (.sectorWriteEnd false) s = .next t
      ∧ t.power.entry = none
      ∧ t.power.state = s.power.state ∧ t.power.heldShelf = none ∧ t.power.shelfCauses = []
      ∧ t.wb.halted = true ∧ t.reasonSet .battery = true
      ∧ allAnswered requests .halted [] s t
      ∧ t.power.critical = (if EntryCause.criticalTimer ∈ s.power.shelfCauses ∧ s.power.band.timed = true
          ∧ s.power.charger = false then .running 60000 else s.power.critical)
      ∧ t.power.retryExhausted = (s.power.retryExhausted || decide (EntryCause.exhausted ∈ s.power.shelfCauses))
      ∧ keptBut [.flash, .faults, .attention, .writeBack, .heldWakes, .shelfEntry, .battery] s t)

/-! ### Downloads -/

/-- R55, R8 and R31: START DOWNLOAD is refused by its checks in order, or takes the lowest EMPTY record, the lowest FREE
slot and the blocks of the allocation; the record is FETCHING with its revision raised by 1. An expiry that is due at
once, and other titles that are due, are left out here. An expiry or a tag whose presence byte is 0 is absent whatever its
bytes are: the model's choice (log 73). -/
def Obligations.StartDownloadOpensARecord : Prop :=
  ∀ (f : Frame) (s : State) (expiry tag : Option Nat), numbersFresh s → takes .startDownload f s →
    optionField (Frame.body f) 16 4 = some expiry → optionField (Frame.body f) 21 1 = some tag →
    let key : TitleKey := BitVec.ofNat 64 (field (Frame.body f) 0 8)
    let length := field (Frame.body f) 8 4
    let check : Crc32 := BitVec.ofNat 32 (field (Frame.body f) 12 4)
    let fits := key ≠ 0 ∧ 1 ≤ length ∧ length ≤ 67108864
    let taken := ∃ g, 1 ≤ g ∧ g ≤ 1024 ∧ (s.recordAt g).state ≠ .empty ∧ (s.recordAt g).key = key
    let full := ∀ g, 1 ≤ g → g ≤ 1024 → (s.recordAt g).state ≠ .empty
    let busy := ∀ i : Fin 4, s.dl.slots[i].state ≠ .free
    let blocks := allocate ((length + 65535) / 65536) s.blocks.conditions
    let refused := fun result => exec (.startDownload f) s = .next (repliedOnly .startDownload f result [] s)
    (¬fits → refused .outOfRange)
    ∧ (fits → taken → refused .duplicateKey)
    ∧ (fits → ¬taken → full → refused .noHandle)
    ∧ (fits → ¬taken → ¬full → busy → refused .noTransferSlot)
    ∧ (∀ r, fits → ¬taken → ¬full → ¬busy → blocks = .error r → refused r)
    ∧ ∀ h i extents, fits → ¬taken → 1 ≤ h → h ≤ 1024 → (s.recordAt h).state = .empty →
        (∀ g, 1 ≤ g → g < h → (s.recordAt g).state ≠ .empty) →
        s.dl.slots[i].state = .free → (∀ j : Fin 4, j < i → s.dl.slots[j].state ≠ .free) → blocks = .ok extents →
        (s.keep.valid = true → (∀ e, expiry = some e → s.keep.seconds < e)
          ∧ ∀ g ∈ s.cat.expiryList, g ≠ h → s.keep.seconds < (s.recordAt g).expiry.getD 0) →
        ∃ t used, exec (.startDownload f) s = .next t
          ∧ (t.recordAt h).toPersisted =
              { state := .fetching, key := key, revision := (s.recordAt h).revision + 1, declaredLength := some length
                titleCheck := some check, extents := extents, position := 0, generation := 0, tag := tag.getD 0
                expiry := expiry, fetch := .noResult }
          ∧ (t.recordAt h).holds = 0 ∧ titlesBut h s t ∧ t.unwritten (sectorOf h)
          ∧ slotOpened i h length used s t
          ∧ t.blocks.conditions = fillExtents (.owned h) extents s.blocks.conditions
          ∧ (h ∈ t.cat.expiryList ↔ expiry.isSome = true)
          ∧ replies .startDownload f .ok
              (item2 h ++ item1 used ++ item2 ((s.recordAt h).revision + 1).toNat ++ item1 1) s t
          ∧ keptBut [.port, .titles, .expiries, .transfers, .blocks] s t

/-- R56: RESTART DOWNLOAD is refused by its checks in order, or opens a slot for an INCOMPLETE record, which is FETCHING
again with its revision raised by 1. R57: CANCEL DOWNLOAD ends the transfer of a FETCHING record, which is
INCOMPLETE with CANCELLED. -/
def Obligations.RestartAndCancelDownload : Prop :=
  (∀ (f : Frame) (s : State), numbersFresh s → takes .restartDownload f s →
    let h := field (Frame.body f) 0 2
    let r := s.recordAt h
    let length := r.declaredLength.getD 0
    let covered := (r.extents.map (·.count)).sum = (length + 65535) / 65536
    let busy := ∀ i : Fin 4, s.dl.slots[i].state ≠ .free
    let refused := fun result => exec (.restartDownload f) s = .next (repliedOnly .restartDownload f result [] s)
    (validHandle h = false → refused .badHandle)
    ∧ (validHandle h = true → r.state ≠ .incomplete → refused .wrongState)
    ∧ (validHandle h = true → r.state = .incomplete → ¬covered → refused .outOfRange)
    ∧ (validHandle h = true → r.state = .incomplete → covered → busy → refused .noTransferSlot)
    ∧ ∀ i, validHandle h = true → r.state = .incomplete → covered → s.dl.slots[i].state = .free →
        (∀ j : Fin 4, j < i → s.dl.slots[j].state ≠ .free) →
        ∃ t used, exec (.restartDownload f) s = .next t
          ∧ (t.recordAt h).toPersisted =
              { r.toPersisted with state := .fetching, fetch := .noResult, revision := r.revision + 1 }
          ∧ titlesBut h s t ∧ slotOpened i h length used s t
          ∧ replies .restartDownload f .ok (item2 h ++ item1 used ++ item2 (r.revision + 1).toNat) s t
          ∧ keptBut [.port, .titles, .expiries, .transfers] s t)
  ∧ (∀ (f : Frame) (s : State), numbersFresh s → takes .cancelDownload f s →
    let h := field (Frame.body f) 0 2
    let refused := fun result => exec (.cancelDownload f) s = .next (repliedOnly .cancelDownload f result [] s)
    (validHandle h = false → refused .badHandle)
    ∧ (validHandle h = true → (s.recordAt h).state ≠ .fetching → refused .wrongState)
    ∧ ∀ i, validHandle h = true → (s.recordAt h).state = .fetching → s.slotOf h = some i →
        ∃ t, exec (.cancelDownload f) s = .next t ∧ transferEnds i s t
          ∧ fetchEnds h .incomplete .cancelled s t ∧ t.unwritten (sectorOf h)
          ∧ replies .cancelDownload f .ok (item2 ((s.recordAt h).revision + 1).toNat) s t
          ∧ keptBut [.port, .titles, .transfers] s t)

/-- R59: the first check that a segment frame fails gives the radio status with the free buffers, and the frame has no
other effect. R59 and R60: a segment frame that passes the checks is ACCEPTED; its payload waits in the lowest free
buffer and its index is pending. -/
def Obligations.SegmentFramesAreCheckedAndBuffered : Prop :=
  (∀ (r : RadioFrame) (s : State), s.powered = true →
    let whole := r.payload.length = r.length.toNat ∧ RadioFrame.checkGood r = true
    let refused := fun code =>
      exec (.segmentFrame r) s = .next { s with radio := ⟨code, r.tag, r.index, s.freeBuffers, 0, 0, 0, 0⟩ }
    (¬whole → refused .badCheck)
    ∧ (whole → s.slotTagged r.tag.toNat = none → refused .noTransfer)
    ∧ ∀ i, whole → s.slotTagged r.tag.toNat = some i →
        let t := s.dl.slots[i]
        let n := r.index.toNat
        let fits := r.payload.length = min 16384 ((s.recordAt t.handle).declaredLength.getD 0 - 16384 * n)
        let known := t.received.getD n false = true ∨ n ∈ t.pending
        (t.state = .suspended → refused .suspended)
        ∧ (t.state ≠ .suspended → t.received.length ≤ n → refused .outOfRange)
        ∧ (t.state ≠ .suspended → n < t.received.length → ¬fits → refused .badLength)
        ∧ (t.state ≠ .suspended → n < t.received.length → fits → known → refused .duplicate)
        ∧ (t.state ≠ .suspended → n < t.received.length → fits → ¬known → s.freeBuffers = 0 → refused .noBuffer))
  ∧ (∀ (r : RadioFrame) (s : State) (i b : Fin 4), shelfWaits s → s.powered = true → segmentChecks r s = .ok i →
    s.dl.buffers[b] = none → (∀ c : Fin 4, c < b → s.dl.buffers[c].isSome = true) →
    let old := s.dl.slots[i]
    ∃ t, exec (.segmentFrame r) s = .next t
      ∧ t.radio = ⟨.accepted, r.tag, r.index, s.freeBuffers - 1, 0, 0, 0, 0⟩
      ∧ (t.dl.slots[i].handle = old.handle ∧ t.dl.slots[i].tag = old.tag ∧ t.dl.slots[i].received = old.received
          ∧ t.dl.slots[i].pending = old.pending ++ [r.index.toNat] ∧ t.dl.slots[i].erased = old.erased)
      ∧ (∀ j : Fin 4, j ≠ i → TransferSlot.content t.dl.slots[j] = TransferSlot.content s.dl.slots[j])
      ∧ t.dl.buffers[b].map Segment.content =
          some ((old.xfer, old.tag, r.index.toNat), (r.payload, s.dl.nextAccept))
      ∧ (∀ c : Fin 4, c ≠ b → t.dl.buffers[c].map Segment.content = s.dl.buffers[c].map Segment.content)
      ∧ keptBut [.radio, .transfers] s t)

/-- R61, R62 and R203: what the queries and a bad frame put into the radio status; nothing else changes, and a read of the
status changes nothing at all. The model's choice: the echo of a short or unknown frame (log 32), BAD_CHECK for a short
transaction of kind 0x00 (log 63), and BAD_CHECK for a query whose length is 0 and that carries payload bytes (log 65). -/
def Obligations.RadioQueriesSetTheStatus : Prop :=
  ∀ s : State, exec .radioStatusRead s = .next s ∧ (s.powered = true →
    (∀ bytes, exec (.badRadioFrame bytes) s = .next { s with radio :=
        ⟨.badCheck, bytes.getD 1 0, BitVec.ofNat 16 (field bytes 2 2), s.freeBuffers, 0, 0, 0, 0⟩ })
    ∧ ∀ r : RadioFrame,
      let whole := r.index = 0 ∧ r.length = 0 ∧ r.payload = [] ∧ RadioFrame.checkGood r = true
      let plain := fun code => { s with radio := ⟨code, r.tag, r.index, s.freeBuffers, 0, 0, 0, 0⟩ }
      (¬whole → exec (.queryTransfer r) s = .next (plain .badCheck) ∧ exec (.endOfStream r) s = .next (plain .badCheck))
      ∧ (whole → s.slotTagged r.tag.toNat = none →
          exec (.queryTransfer r) s = .next (plain .noTransfer) ∧ exec (.endOfStream r) s = .next (plain .noTransfer))
      ∧ ∀ i, whole → s.slotTagged r.tag.toNat = some i →
          let t := s.dl.slots[i]
          exec (.queryTransfer r) s = .next { s with radio :=
              ⟨.accepted, r.tag, r.index, s.freeBuffers, t.state.toNat, t.receivedCount, t.firstMissing, 0⟩ }
          ∧ (t.state = .verifying ∨ t.received.all id = true → exec (.endOfStream r) s = .next (plain .ended))
          ∧ (t.state ≠ .verifying → t.received.all id = false → exec (.endOfStream r) s = .next { s with radio :=
              ⟨.missing, r.tag, r.index, s.freeBuffers, 0, 0, t.firstMissing, t.received.length - t.receivedCount⟩ }))

/-- R64 and R66: the end of a block erase. On success the block reads as erased flash, which is 0xFF (log 16, PRESUMED),
and is erased in its transfer; on failure SEGMENT_WRITE is reported and the transfer fails with FLASH. The bytes that a
failed erase leaves are free values (log 15). -/
def Obligations.BlockEraseEnds : Prop :=
  ∀ (s : State) (cls xfer handle position block : Nat), shelfWaits s → s.powered = true →
    s.port.phase = .busy ⟨cls, false, .erase xfer handle position block⟩ →
    (∃ t, exec (.blockEraseEnd true) s = .next t
      ∧ (∀ a, t.flash.byteAt a = if 65536 * block ≤ a ∧ a < 65536 * (block + 1) then 0xFF#8 else s.flash.byteAt a)
      ∧ t.flash = { s.flash with title := t.flash.title, unknown := t.flash.unknown }
      ∧ (∀ i, s.slotHolding xfer = some i →
          t.dl.slots[i].erased = s.dl.slots[i].erased.set position true ∧ position ∉ t.dl.slots[i].erasing
          ∧ t.dl.slots[i].received = s.dl.slots[i].received ∧ t.dl.slots[i].pending = s.dl.slots[i].pending)
      ∧ keptBut [.flash, .transfers] s t)
    ∧ ∃ t, exec (.blockEraseEnd false) s = .next t
      ∧ faultTaken .segmentWrite (some handle) s t
      ∧ (∀ a, a < 65536 * block ∨ 65536 * (block + 1) ≤ a → t.flash.byteAt a = s.flash.byteAt a)
      ∧ (∀ i, s.slotHolding xfer = some i → transferFails i .flash s t)
      ∧ keptBut [.flash, .transfers, .titles, .faults, .attention] s t

/-- R65, R66 and R67: the end of a segment program. On success the payload stands at its flash address, the index is
received and no longer pending, and the buffer is free; with the last index the slot goes on to verification. On failure
SEGMENT_WRITE is reported and the transfer fails with FLASH. That the rest of the 16 KiB unit behind a short payload
reads as its cells, also where the unit was undefined, is the model's choice (log 15). What a failed program leaves in
flash, and a result whose transfer has ended, are left out here. -/
def Obligations.SegmentProgramEnds : Prop :=
  ∀ (s : State) (cls xfer handle index unit : Nat) (b : Fin 4) (g : Segment) (i : Fin 4), shelfWaits s →
    s.powered = true → s.port.phase = .busy ⟨cls, false, .program xfer handle index (16384 * unit) b⟩ →
    s.dl.buffers[b] = some g → g.xfer = xfer → g.payload.length ≤ 16384 → s.slotHolding xfer = some i →
    (∃ t, exec (.segmentProgramEnd true) s = .next t
      ∧ (∀ a, t.flash.byteAt a =
          if 16384 * unit ≤ a ∧ a < 16384 * unit + g.payload.length then g.payload.getD (a - 16384 * unit) 0
          else if 16384 * unit ≤ a ∧ a < 16384 * (unit + 1) then Memory.read s.flash.title a
          else s.flash.byteAt a)
      ∧ t.flash = { s.flash with title := t.flash.title, unknown := t.flash.unknown }
      ∧ t.dl.slots[i].received = s.dl.slots[i].received.set index true ∧ index ∉ t.dl.slots[i].pending
      ∧ t.dl.slots[i].verification =
          (if (s.dl.slots[i].received.set index true).all id then some ⟨0, 0xFFFFFFFF#32⟩
          else s.dl.slots[i].verification)
      ∧ t.dl.buffers[b] = none ∧ (∀ c : Fin 4, c ≠ b → t.dl.buffers[c].map Segment.content
          = s.dl.buffers[c].map Segment.content)
      ∧ keptBut [.flash, .transfers] s t)
    ∧ ∃ t, exec (.segmentProgramEnd false) s = .next t
      ∧ faultTaken .segmentWrite (some handle) s t ∧ t.dl.buffers[b] = none
      ∧ TransferSlot.content t.dl.slots[i] = TransferSlot.content TransferSlot.blank
      ∧ fetchEnds s.dl.slots[i].handle .incomplete .flash s t ∧ t.reasonSet .downloadFailed = true
      ∧ keptBut [.flash, .transfers, .titles, .faults, .attention] s t

/-- R67 and R68: the end of a verification read. Before the title's end the progress moves on; at its end the record is
READY with DONE where the CRC-32 is the title check, and INCOMPLETE with CHECK where it is not, and the slot is
free. R69: a transfer whose inactivity deadline runs out while it is RECEIVING fails with TIMEOUT. The model's choice
(log 9, log 10): the expiry of a deadline that does not run changes nothing. -/
def Obligations.TransfersAreVerifiedOrTimeOut : Prop :=
  (∀ (s : State) (cls xfer address length : Nat) (i : Fin 4) (v : Verification), shelfWaits s → s.powered = true →
    s.port.phase = .busy ⟨cls, false, .verifyRead xfer address length⟩ → s.slotHolding xfer = some i →
    s.dl.slots[i].verification = some v →
    let h := s.dl.slots[i].handle
    let crc := crc32Feed v.crc (s.flash.bytes address length)
    let more := v.offset + length < (s.recordAt h).declaredLength.getD 0
    let good := (s.recordAt h).titleCheck = some (crc32Finish crc)
    (more → ∃ t, exec .verificationReadEnd s = .next t
      ∧ t.dl.slots[i].verification = some ⟨v.offset + length, crc⟩ ∧ keptBut [.transfers] s t)
    ∧ (¬more → good → ∃ t, exec .verificationReadEnd s = .next t ∧ transferEnds i s t ∧ fetchEnds h .ready .done s t
      ∧ t.reasonSet .downloadDone = true ∧ keptBut [.transfers, .titles, .attention] s t)
    ∧ (¬more → ¬good → ∃ t, exec .verificationReadEnd s = .next t ∧ transferFails i .check s t
      ∧ keptBut [.transfers, .titles, .attention] s t))
  ∧ (∀ (s : State) (i : Fin 4), shelfWaits s → s.powered = true →
    (s.dl.slots[i].state = .receiving → ∃ t, exec (.inactivityDeadlineExpiry i) s = .next t
      ∧ transferFails i .timeout s t ∧ keptBut [.transfers, .titles, .attention] s t)
    ∧ (s.dl.slots[i].state ≠ .receiving → exec (.inactivityDeadlineExpiry i) s = .next s))

/-! ### Page memory and page slots -/

/-- R81: CLAIM SLOT is refused by its checks in order, or gives the lowest FREE slot the identity, the fence and the
mode hint; the slot is FILLING. R84 and R85: a slot number outside 0..27 is OUT_OF_RANGE; COMPLETE SLOT makes a FILLING
slot READY where the identity is the slot's, answers SLOT_STATE for one that is complete, and SOURCE_GONE where the
identity is another; FREE SLOT frees a FILLING or READY slot, and answers SLOT_STATE for any other. What a RETIRING title
does besides when it loses the slot is left out here. -/
def Obligations.SlotsAreClaimedCompletedAndFreed : Prop :=
  (∀ (f : Frame) (s : State) (fence : Bool), numbersFresh s → takes .claimSlot f s →
    flagField (Frame.body f) 5 = some fence →
    let h := field (Frame.body f) 0 2
    let page := field (Frame.body f) 2 2
    let generation := field (Frame.body f) 4 1
    let held := ∃ i : Fin 28, s.pm.slots[i].state ≠ .free ∧ s.pm.slots[i].handle = h ∧ s.pm.slots[i].page = page
      ∧ s.pm.slots[i].generation = generation
    let named := validHandle h = true ∧ (hintField (Frame.body f) 6).isSome = true
    let good := named ∧ (s.recordAt h).state = .ready
    let refused := fun result => exec (.claimSlot f) s = .next (repliedOnly .claimSlot f result [] s)
    (validHandle h = false → refused .badHandle)
    ∧ (validHandle h = true → hintField (Frame.body f) 6 = none → refused .outOfRange)
    ∧ (named → (s.recordAt h).state ≠ .ready → refused .wrongState)
    ∧ (good → generation ≠ (s.recordAt h).generation → refused .staleGeneration)
    ∧ (good → generation = (s.recordAt h).generation → held → refused .duplicatePage)
    ∧ (good → generation = (s.recordAt h).generation → ¬held → (∀ i : Fin 28, s.pm.slots[i].state ≠ .free) →
        refused .noSlot)
    ∧ ∀ (i : Fin 28) (hint : ModeHint), hintField (Frame.body f) 6 = some hint → good →
        generation = (s.recordAt h).generation → ¬held → s.pm.slots[i].state = .free →
        (∀ j : Fin 28, j < i → s.pm.slots[j].state ≠ .free) →
        ∃ t, exec (.claimSlot f) s = .next t
          ∧ t.pm.slots = s.pm.slots.set i ⟨.filling, h, page, generation, fence, hint⟩
          ∧ replies .claimSlot f .ok (item1 i.val ++ item1 (i.val + 4)) s t ∧ keptBut [.port, .slots] s t)
  ∧ (∀ (f : Frame) (s : State), numbersFresh s → 28 ≤ field (Frame.body f) 0 1 →
    (takes .completeSlot f s → exec (.completeSlot f) s = .next (repliedOnly .completeSlot f .outOfRange [] s))
    ∧ (takes .freeSlot f s → exec (.freeSlot f) s = .next (repliedOnly .freeSlot f .outOfRange [] s)))
  ∧ (∀ (f : Frame) (s : State) (i : Fin 28), numbersGiven s → field (Frame.body f) 0 1 = i.val →
    let p := s.pm.slots[i]
    (takes .completeSlot f s →
      let same := p.state ≠ .free ∧ p.handle = field (Frame.body f) 1 2 ∧ p.page = field (Frame.body f) 3 2
        ∧ p.generation = field (Frame.body f) 5 1
      (¬same → exec (.completeSlot f) s = .next (repliedOnly .completeSlot f .sourceGone [] s))
      ∧ (same → p.state ≠ .filling → exec (.completeSlot f) s = .next (repliedOnly .completeSlot f .slotState [] s))
      ∧ (same → p.state = .filling → ∃ t, exec (.completeSlot f) s = .next t
          ∧ t.pm.slots = s.pm.slots.set i { p with state := .ready }
          ∧ replies .completeSlot f .ok [] s t ∧ keptBut [.port, .slots, .turning] s t))
    ∧ (takes .freeSlot f s →
      (p.state ≠ .filling → p.state ≠ .ready → exec (.freeSlot f) s = .next (repliedOnly .freeSlot f .slotState [] s))
      ∧ (p.state = .filling ∨ p.state = .ready → ∃ t, exec (.freeSlot f) s = .next t
          ∧ t.pm.slots = s.pm.slots.set i PageSlot.blank ∧ hasReply .freeSlot f .ok [] t
          ∧ ((s.recordAt p.handle).state ≠ .retiring → keptBut [.port, .slots, .turning, .attention] s t))))

/-- R77, R82 and R83: WRITE PIXELS is refused by its checks in order. With no word in error and no lane loading the frame,
the payload stands in the rectangle, row by row, two pixels a byte with the left one high, and no other byte of page
memory changes; while a lane loads the frame, the write is held. -/
def Obligations.WritePixelsWritesTheRectangle : Prop :=
  ∀ (f : Frame) (s : State), numbersFresh s → takes .writePixels f s → s.pm.errors = [] →
    let b := Frame.body f
    let frame := field b 0 1
    let r := rectField b 1
    let aligned := r.x % 8 = 0 ∧ r.w % 8 = 0 ∧ r.y % 4 = 0 ∧ r.h % 4 = 0 ∧ 8 ≤ r.w ∧ 4 ≤ r.h
    let inside := r.x + r.w ≤ 1680 ∧ r.y + r.h ≤ 1248 ∧ r.w * r.h / 2 ≤ 16384
    let known := 1 ≤ frame ∧ frame ≤ 31
    let open' := ∀ i : Fin 28, frame = i.val + 4 → s.pm.slots[i].state = .filling
    let loading := ∃ l : Fin 4, s.panel.lanes[l].state = .loading ∧ s.panel.lanes[l].source = frame
    let refused := fun result => exec (.writePixels f []) s = .next (repliedOnly .writePixels f result [] s)
    (¬known → refused .outOfRange)
    ∧ (known → ¬aligned → refused .misaligned)
    ∧ (known → aligned → ¬inside → refused .outOfRange)
    ∧ (known → aligned → inside → ¬open' → refused .slotState)
    ∧ (known → aligned → inside → open' → ¬loading → ∃ t, exec (.writePixels f []) s = .next t
        ∧ (∀ a, Memory.read t.pm.cells a =
            let offset := a - 1048576 * frame
            let row := offset / 840
            let column := offset % 840
            if 1048576 * frame ≤ a ∧ r.y ≤ row ∧ row < r.y + r.h ∧ r.x / 2 ≤ column ∧ column < r.x / 2 + r.w / 2 then
              b.getD (9 + (row - r.y) * (r.w / 2) + (column - r.x / 2)) 0
            else Memory.read s.pm.cells a)
        ∧ replies .writePixels f .ok [] s t ∧ keptBut [.port, .pixels] s t)
    ∧ (known → aligned → inside → open' → loading → ∃ t, exec (.writePixels f []) s = .next t
        ∧ (∃ w, t.pm.held = s.pm.held ++ [w] ∧ w.request = s.link.nextId ∧ w.frame = frame ∧ w.rect = r
            ∧ w.pixels = b.drop 9)
        ∧ waits .writePixels f s t ∧ keptBut [.port, .heldWrites] s t)

/-! ### Keys and turning -/

/-- What moves the page slots for the Turn Engine. R88 and R104: the show that a turn asks for. Where its slot still
stands READY, the slot becomes SHOWN, the slot that was SHOWN is given up, the boost is raised in READING, and a TURN
update of the slot's frame, over the whole panel and with the mode of the slot's hint, joins the queue or is admitted;
on a halted panel the turn fails with PANEL_FAULT (R108, R138). Where the slot was freed since the lookup (log 22), the
show changes no slot and the turn ends as one that found none (R104, R113). R88: the give-up of a SHOWN slot returns it
to READY where its title is READY with the slot's generation, and frees it else; a trailing release frees the READY
slots it names. The give-ups and releases are taken oldest first, and a give-up that has been sent behind a show is next
once the show is made (R79; log 21, DEDUCED). Where none is sent their events change nothing (log 10). That a failed
show ends the turn boost, and the time of the presses that are handed over, are the model's reading (logs 23 and 33,
DEDUCED). A title that is RETIRING and waits for a slot is left out here. -/
def Obligations.GiveUpAndTrailingRelease : Prop :=
  ∀ s : State, shelfWaits s → s.powered = true →
    (∀ f : TurnFlight, s.turn.flight = some f → f.shown = false →
      let p := s.pm.slots[f.slot]
      let stands := p.state = .ready ∧ f.lost = false
      let shows := fun u : State => u.turn = { s.turn with
        lastShow := if f.giveUp then none else some f.slot
        giveUps := s.turn.giveUps ++ if f.giveUp then [f.slot] else []
        flight := some { f with shown := true }, refillArmed := u.turn.refillArmed }
      (stands → s.panel.halted = false → (∀ i : Fin 28, s.pm.slots[i].state ≠ .shown) → ordersGiven s →
        ∃ u, exec .showSlot s = .next u
          ∧ u.pm.slots = s.pm.slots.set f.slot { p with state := .shown }
          ∧ shows u
          ∧ turnUpdateStands f.slot p.hint s.panel.nextOrder u ∧ u.panel.nextOrder = s.panel.nextOrder + 1
          ∧ (s.power.state = .reading → u.power.turnBoost = true)
          ∧ keptBut [.slots, .turning, .ghosts] s u)
      ∧ (stands → s.panel.halted = false → ordersGiven s → ∀ i : Fin 28, s.pm.slots[i].state = .shown →
          (∀ j : Fin 28, s.pm.slots[j].state = .shown → j = i) →
          let old := s.pm.slots[i]
          let fresh := (s.recordAt old.handle).state = .ready ∧ (s.recordAt old.handle).generation = old.generation
          (s.recordAt old.handle).state ≠ .retiring → (∀ e ∈ s.panel.queue, e.source ≠ i.val + 4) →
        ∃ u, exec .showSlot s = .next u
          ∧ u.pm.slots = (s.pm.slots.set i (if fresh then { old with state := .ready } else PageSlot.blank)).set f.slot
              { p with state := .shown }
          ∧ shows u
          ∧ turnUpdateStands f.slot p.hint s.panel.nextOrder u
          ∧ (s.power.state = .reading → u.power.turnBoost = true)
          ∧ keptBut [.slots, .turning, .ghosts] s u)
      ∧ (stands → s.panel.halted = true → (∀ i : Fin 28, s.pm.slots[i].state ≠ .shown) →
        ∃ u, exec .showSlot s = .next u
          ∧ u.pm.slots = s.pm.slots.set f.slot { p with state := .shown }
          ∧ turnFails f (some f.slot) .panelFault s u ∧ keptBut [.slots, .turning, .attention] s u)
      ∧ (¬stands → ∃ u, exec .showSlot s = .next u ∧ showMisses f s u ∧ keptBut [.turning, .attention] s u))
    ∧ (∀ (i : Fin 28) (rest : List (Fin 28)), s.turn.giveUps = i :: rest →
      let p := s.pm.slots[i]
      let fresh := (s.recordAt p.handle).state = .ready ∧ (s.recordAt p.handle).generation = p.generation
      (s.recordAt p.handle).state ≠ .retiring →
      ∃ t, exec .giveUpShownSlot s = .next t
        ∧ ((∀ e ∈ s.panel.queue, e.origin = .host) → t.turn.giveUps = rest)
        ∧ t.pm.slots = (if p.state = .shown then
            s.pm.slots.set i (if fresh then { p with state := .ready } else PageSlot.blank) else s.pm.slots)
        ∧ keptBut [.slots, .turning, .attention] s t)
    ∧ (∀ (is : List (Fin 28)) (rest : List (List (Fin 28))), s.turn.trailing = is :: rest →
      (∀ i ∈ is, (s.recordAt s.pm.slots[i].handle).state ≠ .retiring) →
      ∃ t, exec .trailingRelease s = .next t ∧ t.turn.trailing = rest
        ∧ (∀ i : Fin 28, t.pm.slots[i] =
            if i ∈ is ∧ s.pm.slots[i].state = .ready then PageSlot.blank else s.pm.slots[i])
        ∧ keptBut [.slots, .turning, .attention] s t)
    ∧ (s.turn.giveUps = [] → exec .giveUpShownSlot s = .next s)
    ∧ (s.turn.trailing = [] → exec .trailingRelease s = .next s)

/-- R94, R95, R98, R103, R105, R111, R147, R159: a press of a key that was not pressed. In ACTIVE and READING, POWER
goes to the host key queue, LIGHT to the light, and FWD and BACK to the Turn Engine: passed on in OFF and PASS, handed
to the host while STOPPED, owed while TURNING, and in READY a turn, or a stop by MISS or FENCE at its lookup; a full
host key queue keeps its entries and posts KEYS_LOST. In READING the press restarts the dormant delay. R95, R161, R163:
in DORMANT and during an entry an unarmed key is discarded; an armed one becomes the held wake where none holds and
something is held or under way (log 28), or ends DORMANT to READING and is then routed. -/
def Obligations.KeyEventsAreRouted : Prop :=
  ∀ (key : Key) (s : State), shelfWaits s → s.powered = true → s.power.state ≠ .bringup →
    s.keys.pressed key = false →
    let event : KeyEvent := ⟨key, s.keep.seconds, s.keep.milliseconds, s.keep.valid⟩
    let parts : List Part := [.keyLines, .turning, .attention, .lightChoice]
    let holding := s.power.entry.isSome = true ∨ s.power.heldDue = true
    let delay := if s.settings.dormantDelay = 0 then DormantDelay.stopped
      else .running (s.settings.dormantDelay * 60000)
    (s.power.state = .active ∨ s.power.state = .reading → s.power.entry = none →
      ∃ t, exec (.keyEvent key) s = .next t ∧ t.keys = s.keys.setLine key true ∧ keyRouted event s t
        ∧ (key = .light → t.light.switch = (if s.light.switch then s.light.timedOff || s.light.forcedDark else true)
          ∧ t.light.dimmed = false ∧ keptBut [.keyLines, .lightChoice] s t)
        ∧ (s.power.state = .reading → t.power.dormantDelay = delay ∧ t.light.timedOff = false)
        ∧ keptBut parts s t)
    ∧ (s.power.state = .dormant ∨ s.power.entry.isSome = true →
      (s.keyArmed key = false → ∃ t, exec (.keyEvent key) s = .next t ∧ t.keys = s.keys.setLine key true
        ∧ keptBut [.keyLines] s t)
      ∧ (s.keyArmed key = true → holding → ∃ t, exec (.keyEvent key) s = .next t ∧ t.keys = s.keys.setLine key true
        ∧ t.power.heldWake = (if s.power.heldWake = none then some (.key event) else s.power.heldWake)
        ∧ t.power.heldShelf = s.power.heldShelf ∧ keptBut [.keyLines, .heldWakes] s t)
      ∧ (s.keyArmed key = true → ¬holding → ∃ t, exec (.keyEvent key) s = .next t
        ∧ t.keys = s.keys.setLine key true ∧ keyRouted event s t
        ∧ t.power.state = .reading ∧ t.power.entry = none ∧ t.power.dormantDelay = delay
        ∧ (key = .light → t.light.switch = !s.light.switch)
        ∧ t.power.critical = (if s.power.band.timed && !s.power.charger then .running 60000 else s.power.critical)
        ∧ keptBut (parts ++ [.battery, .heldWakes, .shelfEntry]) s t))

/-- R94: a release takes the line back to not pressed and gives no event. R97: READ KEYS answers the oldest entries, at
most as many as asked for, and how many stay behind; they leave the queue. It is taken in DORMANT too. That a press of a
key that is pressed changes nothing is read from R94 (log 40, DEDUCED). -/
def Obligations.KeyReleaseAndReadKeys : Prop :=
  (∀ (key : Key) (s : State), shelfWaits s → s.powered = true → s.power.state ≠ .bringup →
    (s.keys.pressed key = true → exec (.keyEvent key) s = .next s)
    ∧ ∃ t, exec (.keyRelease key) s = .next t ∧ t.keys = s.keys.setLine key false ∧ keptBut [.keyLines] s t)
  ∧ RequestCode.readKeys.takenAsleep = true
  ∧ (∀ (f : Frame) (s : State), shelfWaits s → numbersFresh s → takes .readKeys f s →
    let n := field (Frame.body f) 0 1
    (n < 1 ∨ 8 < n → exec (.readKeys f) s = .next (repliedOnly .readKeys f .outOfRange [] s))
    ∧ (1 ≤ n → n ≤ 8 → ∃ t, exec (.readKeys f) s = .next t
        ∧ t.turn = { s.turn with keyQueue := s.turn.keyQueue.drop n }
        ∧ hasReply .readKeys f .ok (itemList ((s.turn.keyQueue.take n).map keyItems)
            ++ item1 (s.turn.keyQueue.length - n)) t
        ∧ keptBut [.port, .turning] s t))

/-- R100: SET CURRENT TITLE for another title asks the catalogue for a hold and waits; for the current one, READY, it is
answered at once with the new page and no owed turns. While a turn is in flight or a title change waits it is refused. -/
def Obligations.SetCurrentTitleAsksForAHold : Prop :=
  ∀ (f : Frame) (s : State), numbersFresh s → takes .setCurrentTitle f s →
    let h := field (Frame.body f) 0 2
    let page := field (Frame.body f) 2 2
    let busy := s.turn.flight.isSome = true ∨ s.turn.change.isSome = true
    let refused := fun result => exec (.setCurrentTitle f) s = .next (repliedOnly .setCurrentTitle f result [] s)
    (validHandle h = false → refused .badHandle)
    ∧ (validHandle h = true → busy → refused .wrongState)
    ∧ (validHandle h = true → ¬busy → s.turn.title = h → (s.recordAt h).state = .expired → refused .expired)
    ∧ (validHandle h = true → ¬busy → s.turn.title = h → (s.recordAt h).state ≠ .expired →
        (s.recordAt h).state ≠ .ready → refused .wrongState)
    ∧ (validHandle h = true → ¬busy → s.turn.title = h → (s.recordAt h).state = .ready →
        ∃ t, exec (.setCurrentTitle f) s = .next t
          ∧ t.turn = { s.turn with
              page := page, owed := 0, refillArmed := true, reason := none
              state := if s.turn.passThrough then .pass else .ready }
          ∧ replies .setCurrentTitle f .ok [] s t ∧ keptBut [.port, .turning] s t)
    ∧ (validHandle h = true → ¬busy → s.turn.title ≠ h →
        ∃ t, exec (.setCurrentTitle f) s = .next t
          ∧ t.turn = { s.turn with change := some ⟨h, page, s.link.nextId⟩ }
          ∧ waits .setCurrentTitle f s t ∧ keptBut [.port, .turning] s t)

/-- R20, R21, R100, R16 and R106: the Turn Engine's own events at the catalogue. A granted hold makes the title the
current one and answers SET CURRENT TITLE; a refused one answers it with the refusal. A release lowers the hold count of
the former title; the checks that a count of 0 allows are left out here. A position write gives the record the page.
With the title the SHOWN slot of the old one is given up, and behind a show that is still to be taken its slot (R79,
R88). That releases and position writes are taken oldest first, and which slots a give-up names, are the model's reading
(log 21, DEDUCED); that a turn in flight outlasts the change of the title, and the engine is then TURNING, is its choice
(log 45), and so is a release of the title that is the current one again (log 53). -/
def Obligations.TurnEngineReachesTheCatalogue : Prop :=
  ∀ s : State, shelfWaits s → s.powered = true →
    (∀ c, s.turn.change = some c → validHandle c.handle = true →
      let r := s.recordAt c.handle
      (r.state = .ready → r.holds < 15 → ∃ t, exec .turnHold s = .next t
        ∧ (t.recordAt c.handle).holds = r.holds + 1 ∧ (t.recordAt c.handle).toPersisted = r.toPersisted
        ∧ titlesBut c.handle s t
        ∧ t.turn.title = c.handle ∧ t.turn.page = c.page ∧ t.turn.owed = 0 ∧ t.turn.refillArmed = true
        ∧ t.turn.change = none ∧ t.turn.reason = none
        ∧ t.turn.state = (if s.turn.passThrough then .pass else if s.turn.flight.isSome then .turning else .ready)
        ∧ t.turn.releases = s.turn.releases ++ (if s.turn.title = 0 then [] else [s.turn.title])
        ∧ t.turn.giveUps = s.turn.giveUps ++ s.turn.lastShow.toList ∧ t.turn.lastShow = none
        ∧ t.turn.flight = s.turn.flight.map (fun f => { f with giveUp := f.giveUp || !f.shown })
        ∧ (∀ o, s.awaiting c.request = some o → answeredWith o .ok (item2 c.handle ++ item2 c.page) t)
        ∧ keptBut [.titles, .turning] s t)
      ∧ (r.state ≠ .ready ∨ 15 ≤ r.holds → ∃ t, exec .turnHold s = .next t
        ∧ t.turn = { s.turn with change := none }
        ∧ (∀ o, s.awaiting c.request = some o → answeredWith o
            (if r.state = .ready then .holdLimit else if r.state = .expired then .expired else .wrongState) [] t)
        ∧ keptBut [.turning] s t))
    ∧ (∀ h rest, s.turn.releases = h :: rest → validHandle h = true →
      2 ≤ (s.recordAt h).holds ∨ (s.recordAt h).state = .ready →
      ∃ t, exec .turnRelease s = .next t ∧ t.turn = { s.turn with releases := rest }
        ∧ (t.recordAt h).holds = (s.recordAt h).holds - 1 ∧ (t.recordAt h).toPersisted = (s.recordAt h).toPersisted
        ∧ titlesBut h s t ∧ keptBut [.titles, .turning] s t)
    ∧ ∀ (w : PositionWrite) rest, s.turn.positions = w :: rest → validHandle w.handle = true →
      let p := (s.recordAt w.handle).toPersisted
      ∃ t, exec .positionWrite s = .next t ∧ t.turn = { s.turn with positions := rest }
        ∧ recordBecomes w.handle
            (if p.state = .ready ∨ p.state = .expired ∨ p.state = .retiring then { p with position := w.page } else p) s t
        ∧ keptBut [.titles, .turning] s t

/-- R101 and R114: CLEAR CURRENT TITLE gives the title up, with its hold and its SHOWN slot; RESUME TURNING takes a
STOPPED engine with a READY title back to READY, or to TURNING while a turn is in flight. R112: SET PASS-THROUGH
answers the state that it leaves. Switched on, the engine is in PASS and hands its owed turns over; switched off, it
goes by its title: OFF without one, READY or TURNING with a READY one, else STOPPED. That the owed turns carry the time of
this event is the model's reading (log 33, DEDUCED), and so are the lists of give-ups and releases (log 21, DEDUCED). -/
def Obligations.ClearResumeAndPassThrough : Prop :=
  (∀ (f : Frame) (s : State), numbersFresh s →
    (takes .clearCurrentTitle f s →
      let refused := s.turn.title = 0 ∨ s.turn.flight.isSome = true ∨ s.turn.change.isSome = true
      (refused → exec (.clearCurrentTitle f) s = .next (repliedOnly .clearCurrentTitle f .wrongState [] s))
      ∧ (¬refused → ∃ t, exec (.clearCurrentTitle f) s = .next t
          ∧ t.turn = { s.turn with
              title := 0, page := 0, owed := 0, reason := none, refillArmed := true, lastShow := none
              state := if s.turn.passThrough then .pass else .off
              giveUps := s.turn.giveUps ++ s.turn.lastShow.toList
              releases := s.turn.releases ++ [s.turn.title] }
          ∧ replies .clearCurrentTitle f .ok [] s t ∧ keptBut [.port, .turning] s t))
    ∧ (takes .resumeTurning f s →
      let stands := s.turn.state = .stopped ∧ (s.recordAt s.turn.title).state = .ready
      (¬stands → exec (.resumeTurning f) s = .next (repliedOnly .resumeTurning f .wrongState [] s))
      ∧ (stands → ∃ t, exec (.resumeTurning f) s = .next t
          ∧ t.turn = { s.turn with
              reason := none
              state := if s.turn.flight.isSome then .turning else .ready }
          ∧ replies .resumeTurning f .ok [] s t ∧ keptBut [.port, .turning] s t)))
  ∧ (∀ (f : Frame) (s : State) (wanted : Bool), numbersFresh s → takes .setPassThrough f s →
    flagField (Frame.body f) 0 = some wanted →
    let title := (s.recordAt s.turn.title).state
    (wanted = s.turn.passThrough → exec (.setPassThrough f) s =
      .next (repliedOnly .setPassThrough f .ok (item1 s.turn.state.toNat) s))
    ∧ (wanted = true → s.turn.passThrough = false → ∃ t, exec (.setPassThrough f) s = .next t
        ∧ t.turn = { s.turn with
            passThrough := true, state := .pass, reason := none, owed := 0, keyQueue := t.turn.keyQueue }
        ∧ (s.turn.keyQueue.length + s.turn.owed.natAbs ≤ 8 → t.turn.keyQueue = s.turn.keyQueue
            ++ List.replicate s.turn.owed.natAbs
              ⟨⟨if 0 < s.turn.owed then .fwd else .back, s.keep.seconds, s.keep.milliseconds, s.keep.valid⟩, .passed⟩)
        ∧ replies .setPassThrough f .ok (item1 4) s t ∧ keptBut [.port, .turning, .attention] s t)
    ∧ (wanted = false → s.turn.passThrough = true → ∃ t, exec (.setPassThrough f) s = .next t
        ∧ t.turn = { s.turn with passThrough := false, state := t.turn.state, reason := t.turn.reason }
        ∧ (s.turn.title = 0 → t.turn.state = .off)
        ∧ (s.turn.title ≠ 0 → title = .ready →
            t.turn.state = (if s.turn.flight.isSome then .turning else .ready) ∧ t.turn.reason = s.turn.reason)
        ∧ (s.turn.title ≠ 0 → title ≠ .ready → t.turn.state = .stopped ∧ t.reasonSet .turnStopped = true
            ∧ t.turn.reason = some (if title = .expired then .expired else .retiring))
        ∧ replies .setPassThrough f .ok (item1 t.turn.state.toNat) s t ∧ keptBut [.port, .turning, .attention] s t))

/-- R113: GO TO PAGE is refused by its checks in order, or starts a turn to the READY slot that it names; its reply comes
when the turn ends. -/
def Obligations.GoToPageStartsATurn : Prop :=
  ∀ (f : Frame) (s : State), numbersFresh s → takes .goToPage f s →
    let n := field (Frame.body f) 0 1
    let busy := s.turn.title = 0 ∨ s.turn.flight.isSome = true ∨ s.turn.change.isSome = true
    let title := (s.recordAt s.turn.title).state
    let refused := fun result => exec (.goToPage f) s = .next (repliedOnly .goToPage f result [] s)
    (28 ≤ n → refused .outOfRange)
    ∧ (n < 28 → busy → refused .wrongState)
    ∧ (n < 28 → ¬busy → title = .expired → refused .expired)
    ∧ (n < 28 → ¬busy → title ≠ .expired → title ≠ .ready → refused .wrongState)
    ∧ ∀ i : Fin 28, i.val = n → ¬busy → title = .ready →
        let p := s.pm.slots[i]
        let turnable := p.state = .ready ∧ p.handle = s.turn.title
          ∧ p.generation = (s.recordAt s.turn.title).generation
        (¬turnable → refused .slotState)
        ∧ (turnable → ∃ t, exec (.goToPage f) s = .next t
            ∧ t.turn = { s.turn with
                flight := some ⟨i, p.page, .goTo, .goTo s.link.nextId, false, false, false⟩
                state := if s.turn.state = .ready then .turning else s.turn.state }
            ∧ waits .goToPage f s t ∧ keptBut [.port, .turning] s t)

/-! ### Panel updates -/

/-- R117, R120 and R121: UPDATE REGION is refused by its checks in order, joins the entry that it merges into, whose
rectangle grows to the bounding rectangle, or joins the queue as a new entry; with 15 HOST entries queued it is refused.
R125, R126, R128, R136: on a panel with nothing queued or driven, the entry is admitted in the event where its claim fits:
lane 0 loads it, in its mode or promoted to CLEAR, forced so while frame 0 is unknown; where the claim does not fit, it
stays in admission and its claim waits. The shared resources are settled there, as every step leaves them
(StepsSettleTheResources): so a deferred DORMANT entry waits for transfers that are active, and none begins in the
event. -/
def Obligations.UpdateRegionJoinsTheQueue : Prop :=
  ∀ (f : Frame) (s : State) (m : Mode), numbersFresh s → ordersGiven s → takes .updateRegion f s →
    modeField (Frame.body f) 9 = some m → field (Frame.body f) 10 1 < 2 →
    let source := field (Frame.body f) 0 1
    let r := rectField (Frame.body f) 1
    let u : UpdateAsked := ⟨source, r, m, field (Frame.body f) 10 1 == 1⟩
    let known := 1 ≤ source ∧ source ≤ 31
    let aligned := r.x % 8 = 0 ∧ r.w % 8 = 0 ∧ r.y % 4 = 0 ∧ r.h % 4 = 0 ∧ 8 ≤ r.w ∧ 4 ≤ r.h
    let inside := r.x + r.w ≤ 1680 ∧ r.y + r.h ≤ 1248
    let stands := ∀ i : Fin 28, source = i.val + 4 → s.pm.slots[i].state = .ready ∨ s.pm.slots[i].state = .shown
    let good := known ∧ aligned ∧ inside ∧ stands ∧ s.panel.halted = false
    let refused := fun result => exec (.updateRegion f) s = .next (repliedOnly .updateRegion f result [] s)
    (¬known → refused .outOfRange)
    ∧ (known → ¬aligned → refused .misaligned)
    ∧ (known → aligned → ¬inside → refused .outOfRange)
    ∧ (known → aligned → inside → ¬stands → refused .slotState)
    ∧ (known → aligned → inside → stands → s.panel.halted = true → refused .panelFault)
    ∧ (good → s.mergeTarget u = none → 15 ≤ (s.panel.queue.filter fun e => e.origin == .host).length →
        refused .queueFull)
    ∧ (good → s.mergeTarget u = none → (s.panel.queue.filter fun e => e.origin == .host).length < 15 →
        ∃ t, exec (.updateRegion f) s = .next t ∧ updateStands source r [s.link.nextId] t
          ∧ t.panel.nextOrder = s.panel.nextOrder + 1
          ∧ waits .updateRegion f s t ∧ keptBut [.port, .ghosts] s t)
    ∧ (good → resourcesSettled s → s.unloadDue = false → s.awake = true → s.panel.queue = [] → s.power.waiting = [] →
        (∀ i : Fin 4, s.panel.lanes[i].state = .idle) →
        let forced := !s.panel.zeroKnown
        let ghosts := s.panel.ghost.zipIdx.any fun c => r.overlaps ⟨112 * (c.2 % 15), 96 * (c.2 / 15), 112, 96⟩
          && decide (s.settings.ghostLimit < c.1 + if m = .sketch then 2 else 1)
        let promoted := decide (m ≠ .clear) && (forced || !u.noPromote && ghosts)
        let mode := if promoted then Mode.clear else m
        let claim := match mode with
          | .clear => 60
          | .grey16 => 40
          | .mono => 30
          | .sketch => 20
        (s.grantedSum + claim ≤ s.ceiling → ∃ t, exec (.updateRegion f) s = .next t ∧ t.panel.queue = []
          ∧ t.panel.lanes[(0 : Fin 4)] = ⟨.loading, source, r, mode, promoted, .host, [s.link.nextId],
              s.waveform.counts.getD (8 * mode.toNat + t.panel.band) 0, [], none⟩
          ∧ t.power.granted = s.power.granted ++ [⟨.lane 0, claim⟩] ∧ t.power.waiting = []
          ∧ t.panel.zeroKnown = true ∧ t.panel.offDelay = .stopped
          ∧ (mode ≠ .clear → t.panel.band = s.panel.band))
        ∧ (s.ceiling < s.grantedSum + claim → ∃ t, exec (.updateRegion f) s = .next t
          ∧ t.panel.queue = [⟨source, r, m, u.noPromote, .host, s.panel.nextOrder, [s.link.nextId],
              some ⟨mode, promoted, forced⟩⟩]
          ∧ t.power.waiting = [⟨.admission, claim⟩] ∧ t.panel.lanes = s.panel.lanes))
    ∧ ∀ e, good → s.mergeTarget u = some e →
        ∃ t, exec (.updateRegion f) s = .next t
          ∧ updateStands source (e.rect.bounding r) (e.requesters ++ [s.link.nextId]) t
          ∧ waits .updateRegion f s t ∧ keptBut [.port] s t

/-- R123: CANCEL UPDATES removes the queued entry that holds the named request; every requester of the entry is answered
CANCELLED, and the reply counts them. A request that a lane drives is IN_DRIVE, any other NOT_FOUND. That a tag above 15
is OUT_OF_RANGE is the model's reading (log 26, DEDUCED). -/
def Obligations.CancelUpdatesRemovesTheEntry : Prop :=
  ∀ (f : Frame) (s : State), numbersGiven s → takes .cancelUpdates f s →
    let tag := field (Frame.body f) 0 1
    let refused := fun result => exec (.cancelUpdates f) s = .next (repliedOnly .cancelUpdates f result [] s)
    (15 < tag → refused .outOfRange)
    ∧ (tag ≤ 15 → s.requestTagged tag = none → refused .notFound)
    ∧ ∀ named, tag ≤ 15 → s.requestTagged tag = some named →
        (∀ e, s.panel.queue.find? (fun e => e.requesters.contains named) = some e → e.origin = .host →
          ∃ t, exec (.cancelUpdates f) s = .next t ∧ (∀ q ∈ t.panel.queue, q.order ≠ e.order)
            ∧ allAnswered e.requesters .cancelled [] s t
            ∧ hasReply .cancelUpdates f .ok (item1 e.requesters.length) t
            ∧ keptBut [.port, .turning, .attention] s t)
        ∧ ((∀ e ∈ s.panel.queue, named ∉ e.requesters) →
            ((∃ i : Fin 4, s.panel.lanes[i].state ≠ .idle ∧ named ∈ s.panel.lanes[i].requesters) → refused .inDrive)
            ∧ ((∀ i : Fin 4, s.panel.lanes[i].state ≠ .idle → named ∉ s.panel.lanes[i].requesters) →
                refused .notFound))

/-- R91, R111, R132, R133, R134 and R138: the end of a lane's load. Clean, the lane takes the new pixels and, for a
partial mode, the old ones, and drives at once where the supply is ON; else it is LOADED and the supply rises. While
panel drive is halted, it ends with PANEL_FAULT. With an uncorrectable word of its source slot, PAGE_MEMORY is reported,
the slot is freed and the update ends with DATA_ERROR: the requesters are answered, and the turn of a TURN update fails
(R108). R111: where an update of the host takes the SHOWN slot so, the turn engine has no SHOWN slot from then on, and
its state, its page and its owed turns stay. Which slot a failed turn gives up and the time of the presses that it hands
over are the model's reading (logs 21 and 33, DEDUCED), and so that a halt counts where it stands at the load's end is
its choice (log 46). The held writes of the frame, corrected words, and an uncorrectable word of frame 0, of a compose
frame or of another slot are left out here. -/
def Obligations.LaneLoadEnds : Prop :=
  ∀ (s : State) (i : Fin 4) (zeroFirst correctedFirst : Bool), shelfWaits s → s.powered = true →
    let l := s.panel.lanes[i]
    let event := exec (.laneLoadEnd i ⟨[], zeroFirst, correctedFirst⟩) s
    l.state = .loading → (∀ w ∈ s.pm.held, w.frame ≠ l.source) →
    (s.pm.errors = [] → s.panel.halted = false → ∃ t, event = .next t
      ∧ t.panel.lanes[i] = { l with
          state := if s.panel.supply = .on then .driving else .loaded
          newPixels := readRect l.source l.rect s.pm.cells
          oldPixels := if l.mode = .clear then none else some (readRect 0 l.rect s.pm.cells) }
      ∧ (s.panel.supply = .off → t.panel.supply = .rising)
      ∧ keptBut [] s t)
    ∧ (s.pm.errors = [] → s.panel.halted = true →
      (l.origin = .host → ∃ t, event = .next t ∧ allAnswered l.requesters .panelFault [] s t ∧ keptBut [] s t)
      ∧ (∀ f, l.origin = .turn → l.requesters = [] → s.turn.flight = some f →
          ∃ t, event = .next t ∧ turnFails f s.turn.lastShow .panelFault s t ∧ keptBut [.turning, .attention] s t))
    ∧ ∀ j : Fin 28, l.source = j.val + 4 → s.settings.reportCorrected = false →
        s.loadErrors l.source l.rect .double = true →
        (l.mode = .clear ∨ s.loadErrors 0 l.rect .double = false) →
        s.pm.slots[j].state = .ready ∨ s.pm.slots[j].state = .shown →
        (s.recordAt s.pm.slots[j].handle).state ≠ .retiring →
        (l.origin = .host → ∃ t, event = .next t ∧ faultTaken .pageMemory (some l.source) s t
          ∧ t.pm.slots = s.pm.slots.set j PageSlot.blank ∧ allAnswered l.requesters .dataError [] s t
          ∧ (s.pm.slots[j].state = .shown → (∀ e ∈ s.panel.queue, e.origin = .host) →
              (∀ f, s.turn.flight = some f → f.slot ≠ j) →
              t.turn = { s.turn with lastShow := if s.turn.lastShow = some j then none else s.turn.lastShow })
          ∧ keptBut [.slots, .faults, .attention, .turning] s t)
        ∧ (∀ f, l.origin = .turn → l.requesters = [] → s.turn.flight = some f →
          ∃ t, event = .next t ∧ faultTaken .pageMemory (some l.source) s t
          ∧ t.pm.slots = s.pm.slots.set j PageSlot.blank ∧ turnFails f s.turn.lastShow .dataError s t
          ∧ keptBut [.slots, .faults, .attention, .turning] s t)

/-- R134: the panel supply. At regulation it is ON and the LOADED lanes drive; at the end of the off delay it is OFF. No
deferred DORMANT entry begins in the same event here. R137 and R138: where the supply fails to reach regulation,
PANEL_SUPPLY is reported and the LOADED lanes end with PANEL_FAULT; panel drive halts if a severe fault was held already,
and then every queued update of the host is answered PANEL_FAULT. A TURN update that ends so fails the turn in flight
(R108); which slot it gives up and the time of the presses that it hands over are the model's reading (logs 21 and 33,
DEDUCED). The model's choice (log 10): where the supply is not rising, regulation and its failure change nothing, and the
end of the off delay is taken whatever time is left (log 9). -/
def Obligations.PanelSupplySwitchesOrFails : Prop :=
  (∀ s : State, s.powered = true → s.power.entry = none → (s.power.dormantDelay = .deferred → s.anyTransfer = true) →
    (s.panel.supply = .rising → ∃ t, exec .panelSupplyRegulation s = .next t ∧ t.panel.supply = .on
      ∧ (∀ i : Fin 4, s.panel.lanes[i].state ≠ .idle → t.panel.lanes[i] =
          if s.panel.lanes[i].state = .loaded then { s.panel.lanes[i] with state := .driving } else s.panel.lanes[i])
      ∧ keptBut [] s t)
    ∧ (s.panel.supply ≠ .rising → exec .panelSupplyRegulation s = .next s ∧ exec .panelSupplyFailure s = .next s)
    ∧ (s.panel.offDelay.isRunning = true → ∃ t, exec .offDelayEnd s = .next t ∧ t.panel.supply = .off
      ∧ t.panel.offDelay = .stopped ∧ keptBut [] s t))
  ∧ (∀ s : State, s.powered = true → s.power.entry = none → s.panel.supply = .rising →
    ∃ t, exec .panelSupplyFailure s = .next t
      ∧ faultTaken .panelSupply none s t
      ∧ t.panel.halted = (s.panel.halted || s.faults.holdsSevere)
      ∧ (∀ i : Fin 4, s.panel.lanes[i].state = .loaded → allAnswered s.panel.lanes[i].requesters .panelFault [] s t)
      ∧ (s.faults.holdsSevere = true → t.panel.queue = []
          ∧ ∀ e ∈ s.panel.queue, allAnswered e.requesters .panelFault [] s t)
      ∧ (∀ f, s.turn.flight = some f →
          (∃ i : Fin 4, s.panel.lanes[i].state = .loaded ∧ s.panel.lanes[i].origin = .turn)
            ∨ s.faults.holdsSevere = true ∧ (∃ e ∈ s.panel.queue, e.origin = .turn) →
          turnFails f s.turn.lastShow .panelFault s t)
      ∧ t.panel.ghost = s.panel.ghost ∧ t.panel.nextOrder = s.panel.nextOrder
      ∧ keptBut [.faults, .attention, .turning, .ghosts] s t)

/-- R130, R131 and R135: after its frame count a lane settles. At its completion frame 0 takes its pixels, its ghost
cells are cleared by CLEAR or raised by the mode's weight up to the limit, and its requesters are answered DONE with the
mode driven and the PROMOTED mark (log 49). R106, R107 and R109: at the completion of a TURN update the turn in flight
has succeeded: the current page is its page, which is to be written as the position, the pages behind are to be
released, the refill test is made, a GO TO PAGE is answered, and an owed turn is taken, or the engine is READY. The
lists of position writes and releases, and the time of the presses that are handed over, are the model's reading (logs
21 and 33, DEDUCED). No word of frame 0 is in error here. R119: a temperature sample sets the temperature band in every
power state except SHELF, where no update is queued that could take a sample of its own in the same event. -/
def Obligations.LanesCompleteAndTemperatureIsTaken : Prop :=
  (∀ (s : State) (i : Fin 4), shelfWaits s → s.powered = true →
    let l := s.panel.lanes[i]
    (l.state = .driving → ∃ t, exec (.driveEnd i) s = .next t ∧ t.panel.lanes[i] = { l with state := .settling }
      ∧ keptBut [] s t)
    ∧ (l.state = .settling → s.pm.errors = [] → l.rect.x % 8 = 0 → l.rect.w % 8 = 0 →
        l.rect.x + l.rect.w ≤ 1680 → l.rect.y + l.rect.h ≤ 1248 →
      ∃ t, exec (.laneCompletion i []) s = .next t
        ∧ (∀ a, Memory.read t.pm.cells a =
            let row := a / 840
            let column := a % 840
            if l.rect.y ≤ row ∧ row < l.rect.y + l.rect.h ∧ l.rect.x / 2 ≤ column
                ∧ column < l.rect.x / 2 + l.rect.w / 2 then Memory.read l.newPixels a
            else Memory.read s.pm.cells a)
        ∧ (∀ n count, s.panel.ghost[n]? = some count → t.panel.ghost[n]? = some (
            if l.rect.overlaps ⟨112 * (n % 15), 96 * (n / 15), 112, 96⟩ then
              if l.mode = .clear then 0
              else min s.settings.ghostLimit (count + if l.mode = .sketch then 2 else 1)
            else count))
        ∧ t.panel.ghost.length = s.panel.ghost.length
        ∧ (l.origin = .host → allAnswered l.requesters .done (item1 l.mode.toNat ++ itemFlag l.promoted) s t
            ∧ keptBut [.pixels, .ghosts] s t)
        ∧ (∀ f, l.origin = .turn → l.requesters = [] → s.turn.flight = some f →
            turnSucceeds f s t ∧ keptBut [.pixels, .ghosts, .turning, .attention] s t)))
  ∧ (∀ (temperature : Int) (s : State), shelfWaits s → s.powered = true →
    ∃ t, exec (.temperatureSample temperature) s = .next t ∧ keptBut [] s t
      ∧ (s.panel.queue = [] → t.panel.band =
          if temperature < 5 then 0 else if temperature < 10 then 1 else if temperature < 15 then 2
          else if temperature < 20 then 3 else if temperature < 25 then 4 else if temperature < 30 then 5
          else if temperature < 40 then 6 else 7))

/-! ### The light -/

/-- R141 and R147: SET LIGHT sets level, warmth, automatic brightness and the switch, clears timed off and dimmed, and
answers the record of the light with its new targets (log 39); outside its ranges it is OUT_OF_RANGE. That the switch
command is coded ON 0, OFF 1, KEEP 2 is the model's choice (log 68). R142, R146, R148 and R149: an ambient sample moves
the history on, or fills it after bring-up and DORMANT, and sets the factor by the ambient table; a ramp step moves each
output by its step toward its target, before the end of the event; auto-dim sets dimmed, and light-off sets timed off
where the switch is ON. The ends of these timers are taken whatever time is left (log 9). -/
def Obligations.LightRequestsAndEvents : Prop :=
  (∀ (f : Frame) (s : State) (auto : Bool), numbersFresh s → takes .setLight f s →
    flagField (Frame.body f) 3 = some auto →
    let level := field (Frame.body f) 0 1
    let warmth := field (Frame.body f) 1 2
    let command := field (Frame.body f) 4 1
    let fits := level ≤ 31 ∧ warmth ≤ 32767 ∧ command ≤ 2
    (¬fits → exec (.setLight f) s = .next (repliedOnly .setLight f .outOfRange [] s))
    ∧ (fits → ∃ t, exec (.setLight f) s = .next t
        ∧ t.light.level = level ∧ t.light.warmth = warmth ∧ t.light.auto = auto
        ∧ t.light.switch = (if command = 0 then true else if command = 1 then false else s.light.switch)
        ∧ t.light.timedOff = false ∧ t.light.dimmed = false
        ∧ t.light.history = s.light.history ∧ t.light.factor = s.light.factor
        ∧ replies .setLight f .ok (lightRecord (setLight level warmth auto command (accept .setLight f (endFetch s)))) s t
        ∧ keptBut [.port, .lightChoice] s t))
  ∧ (∀ s : State, shelfWaits s → s.powered = true →
    (∀ reading, s.power.state = .active ∨ s.power.state = .reading → s.power.entry = none →
      let history := if s.light.refill then List.replicate 4 reading else s.light.history.drop 1 ++ [reading]
      ∃ t, exec (.ambientSample reading) s = .next t ∧ t.light.history = history ∧ t.light.refill = false
        ∧ t.light.factor = ambientFactor (history.sum / 4) (s.settings.ambientReadings.zip s.settings.ambientFactors)
        ∧ t.light.level = s.light.level ∧ t.light.switch = s.light.switch
        ∧ keptBut [.lightChoice] s t)
    ∧ (s.light.ramp.isRunning = true →
      let step := 2 ^ (s.settings.rampRate + 4)
      let move := fun output target : Nat =>
        if output ≤ target then min (output + step) target else max (output - step) target
      exec .rampStep s = .next (conclude { s with
        light.warmOutput := move s.light.warmOutput s.light.warmTarget
        light.coolOutput := move s.light.coolOutput s.light.coolTarget
        light.ramp := .running 8 }))
    ∧ (s.light.autoDim.isRunning = true → ∃ t, exec .autoDimExpiry s = .next t ∧ t.light.dimmed = true
        ∧ t.light.timedOff = s.light.timedOff ∧ t.light.switch = s.light.switch ∧ keptBut [.lightChoice] s t)
    ∧ (s.light.lightOff.isRunning = true → ∃ t, exec .lightOffExpiry s = .next t
        ∧ t.light.timedOff = (s.light.timedOff || s.light.switch)
        ∧ t.light.dimmed = s.light.dimmed ∧ t.light.switch = s.light.switch ∧ keptBut [.lightChoice] s t))

/-! ### Power states -/

/-- R157 and R163: ENTER READING takes ACTIVE to READING with a residency of 0 and the dormant delay running; RESUME
ACTIVE takes READING to ACTIVE, ends DORMANT to ACTIVE, and during an entry, or with something held, is the held wake
itself, with its tag, unless one holds already. In the state that is asked for, both answer OK. What counts as held after
DORMANT has been reached is the model's reading (log 28, DEDUCED). -/
def Obligations.ReadingAndActive : Prop :=
  ∀ (f : Frame) (s : State), shelfWaits s → numbersGiven s →
    (takes .enterReading f s →
      (s.power.state ≠ .active → exec (.enterReading f) s = .next (repliedOnly .enterReading f .ok [] s))
      ∧ (s.power.state = .active → ∃ t, exec (.enterReading f) s = .next t
          ∧ t.power.state = .reading ∧ t.power.residency = 0
          ∧ t.power.dormantDelay = (if s.settings.dormantDelay = 0 then .stopped
              else .running (s.settings.dormantDelay * 60000))
          ∧ replies .enterReading f .ok [] s t ∧ keptBut [.port, .residency] s t))
    ∧ (takes .resumeActive f s →
      let holding := s.power.entry.isSome = true ∨ s.power.heldDue = true
      (¬holding → s.power.state = .active → exec (.resumeActive f) s = .next (repliedOnly .resumeActive f .ok [] s))
      ∧ (¬holding → s.power.state = .reading → ∃ t, exec (.resumeActive f) s = .next t
          ∧ t.power.state = .active ∧ t.power.dormantDelay = .stopped ∧ t.light.timedOff = false
          ∧ replies .resumeActive f .ok [] s t ∧ keptBut [.port, .lightChoice] s t)
      ∧ (¬holding → s.power.state = .dormant → ∃ t, exec (.resumeActive f) s = .next t
          ∧ t.power.state = .active ∧ t.power.entry = none ∧ t.power.heldWake = none ∧ t.power.heldShelf = none
          ∧ t.power.critical = (if s.power.band.timed && !s.power.charger then .running 60000 else s.power.critical)
          ∧ t.light.refill = true
          ∧ replies .resumeActive f .ok [] s t
          ∧ keptBut [.port, .lightChoice, .battery, .heldWakes, .shelfEntry] s t)
      ∧ (holding → (∃ r, s.power.heldWake = some (.resume r)) →
          exec (.resumeActive f) s = .next (repliedOnly .resumeActive f .wrongState [] s))
      ∧ (holding → (∀ r, s.power.heldWake ≠ some (.resume r)) → ∃ t, exec (.resumeActive f) s = .next t
          ∧ t.power.heldWake = some (.resume ⟨s.link.nextId, f.tag⟩) ∧ t.power.heldShelf = s.power.heldShelf
          ∧ (⟨s.link.nextId, f.tag, .resumeActive, false⟩ : Outstanding) ∈ t.link.outstanding
          ∧ keptBut [.port, .heldWakes] s t))

/-- R158, R159, R160: ENTER DORMANT begins DORMANT entry, and so does a dormant delay that runs out, or it waits for the
transfers that are active. In the event in which it begins, the entry goes as far as its steps are done: to the lanes'
step while a lane is busy, to the light's with the supply OFF while an output is not 0, to the transfers' while the port
has granted one of their operations, and to the flush's while something is unwritten; with write-back halted or nothing
unwritten DORMANT is reached, and ENTER DORMANT is answered OK with the end of the flush. R144: where the claim of an
unload that the event begins leaves the light's claim no room, the outputs fall at once, and the entry may be in the
flush's step already. R129, R162: from then on, whatever event comes, the entry goes on to the step whose work is not
done and never back, in the power state it began from; where all is done DORMANT is reached in the event, and the ENTER
DORMANT that waits is answered. Only a reset and a loss of power end it otherwise. DORMANT_DELAY_EXPIRY is taken
whatever time is left (log 9). -/
def Obligations.DormantEntryBegins : Prop :=
  (∀ s : State, numbersFresh s → s.power.entry = none →
    (∀ f, takes .enterDormant f s → ∃ t, exec (.enterDormant f) s = .next t ∧ keptBut [.port] s t
      ∧ (t.power.entry = some .dormant ∧ waits .enterDormant f s t
        ∨ t.power.state = .dormant ∧ t.power.entry = none
          ∧ (replies .enterDormant f .ok (item1 Result.ok.toNat) s t
            ∨ replies .enterDormant f .ok (item1 Result.halted.toNat) s t))
      ∧ (resourcesSettled s → t.power.dormantDelay = .stopped ∧ entryGoes (waits .enterDormant f s)
          (fun result t => replies .enterDormant f .ok (item1 result.toNat) s t) s t))
    ∧ (∀ n, s.powered = true → s.power.state = .reading → s.power.dormantDelay = .running n →
      ∃ t, exec .dormantDelayExpiry s = .next t ∧ keptBut [] s t
        ∧ (s.power.transfersActive = true → s.anyTransfer = true →
            t.power.dormantDelay = .deferred ∧ t.power.state = .reading ∧ t.power.entry = none)
        ∧ (s.power.transfersActive = false → (t.power.entry = some .dormant ∨ t.power.state = .dormant)
          ∧ (resourcesSettled s → t.power.dormantDelay = .stopped ∧ entryGoes (fun _ => True) (fun _ _ => True) s t))))
  ∧ ∀ s t : State, resourcesSettled s → requestsSound s → s.power.entry = some .dormant → step s = .next t →
    let number := fun u : State => (u.power.step.map EntryStep.toNat).getD 0
    t.power.entry = some .dormant ∧ t.power.state = s.power.state ∧ entryStands t ∧ number s ≤ number t
      ∨ t.power.entry = none ∧ t.power.state = .dormant ∧ dormantStands t
        ∧ (∀ r, EntryCause.enterDormant r ∈ s.power.dormantCauses →
            allAnswered [r.id] .ok (item1 (if t.wb.halted then Result.halted else .ok).toNat) s t)
      ∨ t.powered = false ∨ t.power.state = .bringup

/-- R158, R162, R164: ENTER SHELF in ACTIVE and READING begins a DORMANT entry that SHELF follows; behind an entry it is
held, and a second one is refused. In DORMANT it begins SHELF entry: with nothing unwritten SHELF is reached, the marker
set and the main domain off; while write-back is halted it is answered HALTED and BATTERY is posted. What counts as held
after DORMANT has been reached is the model's reading (log 28, DEDUCED), and that the immediate status then stands at the
port without power is its choice (log 72). -/
def Obligations.EnterShelfBeginsShelfEntry : Prop :=
  ∀ (f : Frame) (s : State), shelfWaits s → numbersGiven s → takes .enterShelf f s →
    let holding := s.power.entry.isSome = true ∨ s.power.heldDue = true
    let taken := s.power.entry = some .shelf ∨ s.power.heldShelf.isSome = true
    let alone := ¬taken ∧ ¬holding ∧ s.power.state = .dormant ∧ s.power.heldWake = none
    (taken → exec (.enterShelf f) s = .next (repliedOnly .enterShelf f .wrongState [] s))
    ∧ (¬taken → holding → ∃ t, exec (.enterShelf f) s = .next t ∧ t.power.heldShelf = some ⟨s.link.nextId, f.tag⟩
        ∧ t.power.heldWake = s.power.heldWake
        ∧ (⟨s.link.nextId, f.tag, .enterShelf, false⟩ : Outstanding) ∈ t.link.outstanding
        ∧ keptBut [.port, .heldWakes] s t)
    ∧ (¬taken → ¬holding → s.power.state = .active ∨ s.power.state = .reading →
        ∃ t, exec (.enterShelf f) s = .next t ∧ waits .enterShelf f s t
          ∧ (t.power.entry = some .dormant ∨ t.power.state = .dormant ∧ t.power.heldDue = true)
          ∧ keptBut [.port] s t)
    ∧ (alone → s.wb.halted = false → s.wb.queue = [] → s.wb.inFlight = none → s.port.phase = .idle →
        s.port.waiting = [] → s.panel.queue = [] →
        ∃ t, exec (.enterShelf f) s = .next t ∧ t.power.state = .shelf ∧ t.powered = false
          ∧ t.keep = { s.keep with shelfMarker := true, powered := s.keep.powered && s.supplies.backup }
          ∧ t.flash = s.flash ∧ t.link.outstanding = [] ∧ t.pins = ⟨false, false⟩)
    ∧ (alone → s.wb.halted = true → ∃ t, exec (.enterShelf f) s = .next t ∧ t.power.state = .dormant
        ∧ t.power.entry = none ∧ t.reasonSet .battery = true ∧ replies .enterShelf f .halted [] s t)
    ∧ (alone → s.wb.halted = false → s.wb.queue ≠ [] → ∃ t, exec (.enterShelf f) s = .next t
        ∧ t.power.entry = some .shelf ∧ waits .enterShelf f s t)

/-- R161, R162 and R163: what is held is acted on after DORMANT has been reached. A held wake ends DORMANT, to ACTIVE for
RESUME ACTIVE and to READING else, and the requests for SHELF are answered CANCELLED; an EXHAUSTED that is due goes
before it, and without a wake the requests for SHELF and the CRITICAL timer that is due are acted on: SHELF entry begins
with all of these as its causes. R164: it ends in the event where its flush does: with nothing unwritten SHELF is reached,
and while write-back is halted it stops, BATTERY is posted, its requests are answered HALTED, and a held wake is acted on.
That a part in DORMANT holds these until this event, and keeps the causes together, is the model's reading (log 28,
DEDUCED). -/
def Obligations.HeldActionEndsDormantOrGoesOn : Prop :=
  ∀ s : State, s.powered = true → s.power.state = .dormant → s.power.entry = none →
    let wanted := s.shelfWanted
    let follows := s.power.dueExhausted = true
      ∨ s.power.heldWake = none ∧ (s.power.dueTimer = true ∨ wanted ≠ [])
    let awake := fun w => match w with
      | Wake.resume _ => PowerState.active
      | _ => .reading
    (s.power.heldDue = false → exec .dormantHeldAction s = .next s)
    ∧ (s.power.heldDue = true → s.power.dueExhausted = false → ∀ w, s.power.heldWake = some w →
      ∃ t, exec .dormantHeldAction s = .next t
        ∧ t.power.state = awake w
        ∧ t.power.entry = none ∧ t.power.heldWake = none ∧ t.power.heldShelf = none ∧ t.power.heldDue = false
        ∧ allAnswered (wanted.map (·.id)) .cancelled [] s t)
    ∧ (s.power.heldDue = true → ¬follows → s.power.heldWake = none → ∃ t, exec .dormantHeldAction s = .next t
        ∧ t.power.heldDue = false ∧ keptBut [] s t)
    ∧ (s.power.heldDue = true → follows → s.wb.halted = false → s.wb.queue ≠ [] →
      ∃ t, exec .dormantHeldAction s = .next t ∧ t.power.entry = some .shelf ∧ t.power.state = .dormant
        ∧ (∀ c, c ∈ t.power.shelfCauses ↔ (∃ r ∈ wanted, c = .enterShelf r)
            ∨ c = .criticalTimer ∧ s.power.dueTimer = true ∨ c = .exhausted ∧ s.power.dueExhausted = true)
        ∧ t.power.heldWake = s.power.heldWake ∧ t.power.heldShelf = none
        ∧ keptBut [.heldWakes, .shelfEntry] s t)
    ∧ (s.power.heldDue = true → s.power.dueExhausted = true ∨ s.power.heldWake = none → follows →
      s.wb.halted = false → s.wb.queue = [] → s.wb.inFlight = none → s.running = none →
      ∃ t, exec .dormantHeldAction s = .next t ∧ t.power.state = .shelf ∧ t.powered = false
        ∧ t.keep = { s.keep with shelfMarker := true, powered := s.keep.powered && s.supplies.backup }
        ∧ t.flash = s.flash ∧ t.link.outstanding = [] ∧ t.pins = ⟨false, false⟩)
    ∧ (s.power.heldDue = true → follows → s.wb.halted = true →
      ∃ t, exec .dormantHeldAction s = .next t ∧ t.power.entry = none ∧ t.reasonSet .battery = true
        ∧ allAnswered (wanted.map (·.id)) .halted [] s t ∧ t.power.heldShelf = none ∧ t.power.heldWake = none
        ∧ t.power.heldDue = false
        ∧ (s.power.heldWake = none → t.power.state = .dormant
            ∧ t.power.retryExhausted = (s.power.retryExhausted || s.power.dueExhausted)
            ∧ (s.power.dueTimer = true → s.power.band.timed = true → s.power.charger = false →
                t.power.critical = .running 60000))
        ∧ ∀ w, s.power.heldWake = some w → t.power.state = awake w)

/-! ### Wake arming, time and battery -/

/-- R167, R177, R178: ARM WAKE takes any set within the capability; SET TIME makes the count valid; SET ALARM needs a
valid time; a step of the count stops at its top value, and the sub-second count with it stays (log 66, the model's
choice). An alarm that a step of the count reaches is posted and cleared. R161, R163: in DORMANT it ends DORMANT to
READING, with the light kept dark (R153), or, in an entry or where something is held (log 28), it becomes the held wake
where none holds. An alarm whose presence byte is 0 is absent whatever its bytes are: the model's choice (log 73). Loans
that are due, and an alarm reached by SET TIME or SET ALARM, are left out here. -/
def Obligations.ArmingTimeAndAlarm : Prop :=
  ∀ (f : Frame) (s : State), shelfWaits s → numbersFresh s →
    let none_due := fun seconds => ∀ h ∈ s.cat.expiryList, seconds < (s.recordAt h).expiry.getD 0
    let no_alarm := fun seconds => ∀ a, s.keep.alarm = some a → seconds < a
    (takes .armWake f s →
      let items : ItemSet := BitVec.ofNat 16 (field (Frame.body f) 0 2)
      (items &&& ~~~s.settings.capability ≠ 0 →
        exec (.armWake f) s = .next (repliedOnly .armWake f .outOfRange [] s))
      ∧ (items &&& ~~~s.settings.capability = 0 → ∃ t, exec (.armWake f) s = .next t
          ∧ t.keep = { s.keep with arming := items } ∧ hasReply .armWake f .ok (item2 items.toNat) t
          ∧ keptBut [.port, .keepAlive] s t))
    ∧ (takes .setTime f s →
      let seconds := field (Frame.body f) 0 4
      none_due seconds → no_alarm seconds → ∃ t, exec (.setTime f) s = .next t
        ∧ t.keep = { s.keep with seconds := seconds, milliseconds := 0, valid := true }
        ∧ hasReply .setTime f .ok [] t ∧ keptBut [.port, .keepAlive] s t)
    ∧ (takes .setAlarm f s → ∀ alarm, optionField (Frame.body f) 0 4 = some alarm →
      (alarm.isSome = true → s.keep.valid = false →
        exec (.setAlarm f) s = .next (repliedOnly .setAlarm f .timeNotSet [] s))
      ∧ (alarm.isSome = true → s.keep.valid = true → (∀ a, alarm = some a → s.keep.seconds < a) →
          ∃ t, exec (.setAlarm f) s = .next t ∧ t.keep = { s.keep with alarm := alarm }
            ∧ replies .setAlarm f .ok [] s t ∧ keptBut [.port, .keepAlive] s t)
      ∧ (alarm = none → ∃ t, exec (.setAlarm f) s = .next t ∧ t.keep = { s.keep with alarm := none }
            ∧ replies .setAlarm f .ok [] s t ∧ keptBut [.port, .keepAlive] s t))
    ∧ (s.keep.powered = false → exec .realTimeCountStep s = .next s)
    ∧ (s.keep.powered = true →
      let seconds := min 4294967295 (s.keep.seconds + 1)
      let milliseconds := if s.keep.seconds < 4294967295 then 0 else s.keep.milliseconds
      (s.keep.valid = false ∨ none_due seconds ∧ no_alarm seconds → ∃ t, exec .realTimeCountStep s = .next t
        ∧ t.keep = { s.keep with seconds := seconds, milliseconds := milliseconds } ∧ keptBut [.keepAlive] s t)
      ∧ (s.keep.valid = true → none_due seconds → s.awake = true → s.powered = true →
          (∃ a, s.keep.alarm = some a ∧ a ≤ seconds) → ∃ t, exec .realTimeCountStep s = .next t
        ∧ t.keep = { s.keep with seconds := seconds, milliseconds := milliseconds, alarm := none }
        ∧ t.reasonSet .alarm = true ∧ keptBut [.keepAlive, .attention] s t)
      ∧ (s.keep.valid = true → none_due seconds → s.powered = true → s.power.state ≠ .bringup →
          s.power.state = .dormant ∨ s.power.entry.isSome = true → (∃ a, s.keep.alarm = some a ∧ a ≤ seconds) →
        let holding := s.power.entry.isSome = true ∨ s.power.heldDue = true
        ∃ t, exec .realTimeCountStep s = .next t
        ∧ t.keep = { s.keep with seconds := seconds, milliseconds := milliseconds, alarm := none }
        ∧ t.reasonSet .alarm = true
        ∧ (holding →
            t.power.heldWake = (if s.power.heldWake = none then some .alarm else s.power.heldWake)
            ∧ t.power.heldShelf = s.power.heldShelf ∧ keptBut [.keepAlive, .attention, .heldWakes] s t)
        ∧ (¬holding → t.power.state = .reading ∧ t.power.entry = none
            ∧ t.power.dormantDelay = (if s.settings.dormantDelay = 0 then .stopped
                else .running (s.settings.dormantDelay * 60000))
            ∧ t.light.forcedDark = s.light.forcedDark ∧ t.light.timedOff = false ∧ t.light.dimmed = false
            ∧ t.light.refill = true ∧ t.light.switch = s.light.switch
            ∧ t.power.critical = (if (s.power.band = .critical ∨ s.power.band = .exhausted)
                ∧ s.power.charger = false then .running 60000 else s.power.critical)
            ∧ keptBut [.keepAlive, .attention, .heldWakes, .shelfEntry, .battery, .lightChoice] s t)))

/-- R15, R23, R26, R86 and R110: when the count reaches the expiry of the one title that is listed as due, the title is
EXPIRED with its revision raised by 1, leaves the list, loses its FILLING and READY slots with the queued updates from
their frames, and TITLE_EXPIRED is posted. The Turn Engine stops where the title is its current one, the reads of the
title that wait are withdrawn, and the transfer of a FETCHING one is aborted with EXPIRED. Retirement on expiry is off,
and the alarm is absent. The time of the owed turns that the Turn Engine hands over is the model's reading (log 33,
DEDUCED). No request number is held twice, as every step keeps it (StepsKeepTheRequestTable). -/
def Obligations.DueTitleExpires : Prop :=
  ∀ (s : State) (h : Nat) (rest : List Nat) (e : Nat), shelfWaits s → numbersApart s →
    s.powered = true → s.power.state ≠ .bringup →
    s.keep.powered = true → s.keep.valid = true → s.keep.alarm = none → s.settings.retireOnExpiry = false →
    s.cat.expiryList = h :: rest → h ∉ rest → validHandle h = true → (s.recordAt h).expiry = some e →
    e ≤ s.keep.seconds + 1 → s.keep.seconds < 4294967295 →
    (∀ g ∈ rest, s.keep.seconds + 1 < (s.recordAt g).expiry.getD 0) →
    let r := s.recordAt h
    r.state = .ready ∨ r.state = .incomplete ∨ r.state = .fetching →
    ∃ t, exec .realTimeCountStep s = .next t
      ∧ (t.recordAt h).toPersisted = { r.toPersisted with
          state := .expired
          fetch := if r.state = .fetching then .expired else r.fetch
          revision := r.revision + 1 }
      ∧ (t.recordAt h).holds = r.holds ∧ titlesBut h s t ∧ t.unwritten (sectorOf h)
      ∧ t.cat.expiryList = rest ∧ neighboursTold h .expired s t
      ∧ t.reasonSet .titleExpired = true
      ∧ keptBut [.titles, .expiries, .slots, .reads, .transfers, .blocks, .turning, .attention, .keepAlive] s t

/-- R169, R170, R171: a battery sample counts toward a new band, and the third in a row sets it. A lower band is taken
below 3600, 3450 and 3300 mV, a higher one from 40 mV above. A lower band in force posts BATTERY, and, CRITICAL or
EXHAUSTED without the charger, starts the CRITICAL timer and DORMANT entry, or is a cause of the entry in progress;
EXHAUSTED without the charger makes SHELF due. The charger stops the timer; the timer's end makes SHELF due: in ACTIVE and
READING behind a DORMANT entry, in DORMANT at once or with what is held, in BRINGUP at its end. R164: an attach during a
SHELF entry is kept for the end of its flush, which it decides (log 27, DEDUCED). A CHG_CHANGE to the level that stands
changes nothing: the model's choice (log 10). A SHELF entry of EXHAUSTED that has stopped on HALTED in this DORMANT is
tried again at a sample that still gives EXHAUSTED without the charger, and stays due where it stops again (log 34,
DEDUCED). What is due in DORMANT with heldDue, and the causes kept together, are the model's reading (log 28, DEDUCED),
and the timer's end is taken whatever time is left (log 9). SHELF entry, and a write-back with nothing to flush or halted,
are left out here for DORMANT but in the retry. -/
def Obligations.BatteryAndCharger : Prop :=
  ∀ s : State, s.powered = true →
    let timed := fun band : Band => band = .critical ∨ band = .exhausted
    (∀ mv, s.power.state ≠ .bringup → s.power.entry ≠ some .shelf → s.power.retryExhausted = false →
      let below := if 3600 ≤ mv then Band.normal else if 3450 ≤ mv then .low
        else if 3300 ≤ mv then .critical else .exhausted
      let above := if 3640 ≤ mv then Band.normal else if 3490 ≤ mv then .low
        else if 3340 ≤ mv then .critical else .exhausted
      let candidate := if s.power.band.toNat < below.toNat then below
        else if above.toNat < s.power.band.toNat then above else s.power.band
      let awake := s.power.state = .active ∨ s.power.state = .reading
      ∃ t, exec (.batterySample mv) s = .next t
        ∧ (candidate = s.power.band → t.power.band = s.power.band ∧ t.power.bandCount = 0
            ∧ t.power.millivolts = mv ∧ t.power.candidate = candidate ∧ keptBut [.battery] s t)
        ∧ (candidate ≠ s.power.band → s.power.bandCount < 2 → t.power.band = s.power.band
            ∧ t.power.bandCount = s.power.bandCount + 1
            ∧ t.power.millivolts = mv ∧ t.power.candidate = candidate ∧ keptBut [.battery] s t)
        ∧ (candidate ≠ s.power.band → 2 ≤ s.power.bandCount → awake ∨ s.power.entry = some .dormant ∨
              s.power.state = .dormant ∧ s.wb.halted = false ∧ s.wb.queue ≠ [] →
            let lower := s.power.band.toNat < candidate.toNat
            t.power.band = candidate ∧ t.power.bandCount = 0 ∧ t.power.millivolts = mv ∧ t.power.candidate = candidate
            ∧ (lower → t.reasonSet .battery = true)
            ∧ (¬timed candidate → t.power.critical = .stopped)
            ∧ (timed candidate → s.power.charger = false → s.power.critical = .stopped →
                t.power.critical = .running 60000)
            ∧ (lower → timed candidate → awake → t.power.entry = some .dormant ∨ t.power.state = .dormant)
            ∧ (lower → timed candidate → s.power.entry = some .dormant →
                .battery ∈ t.power.dormantCauses ∨ t.power.entry = none)
            ∧ (candidate = .exhausted → s.power.charger = false →
                (awake ∨ s.power.entry = some .dormant ∨ s.power.heldDue = true → t.power.dueExhausted = true)
                ∧ (s.power.state = .dormant → s.power.entry = none → s.power.heldDue = false →
                    t.power.entry = some .shelf ∧ t.power.shelfCauses = [.exhausted]))
            ∧ keptBut [.battery, .attention, .shelfEntry, .heldWakes] s t)
        ∧ (awake → s.power.entry = none → keptBut [.battery, .attention, .shelfEntry] s t))
    ∧ (∀ mv, s.power.state = .dormant → s.power.entry = none → s.power.heldDue = false → s.power.retryExhausted = true →
        s.power.charger = false → s.power.band = .exhausted → mv < 3340 →
        (s.wb.halted = false → s.wb.queue ≠ [] → ∃ t, exec (.batterySample mv) s = .next t ∧ t.power.millivolts = mv
          ∧ t.power.entry = some .shelf ∧ t.power.shelfCauses = [.exhausted] ∧ t.power.retryExhausted = true
          ∧ keptBut [.battery, .shelfEntry, .heldWakes] s t)
        ∧ (s.wb.halted = true → s.power.heldWake = none → ∃ t, exec (.batterySample mv) s = .next t
          ∧ t.power.millivolts = mv ∧ t.power.entry = none ∧ t.power.state = .dormant ∧ t.reasonSet .battery = true
          ∧ t.power.retryExhausted = true))
    ∧ (∀ present, present ≠ s.power.charger →
        let critical := if present then Timer.stopped
          else if s.power.band = .critical ∨ s.power.band = .exhausted then .running 60000 else s.power.critical
        (s.power.entry ≠ some .shelf → ∃ t, exec (.chgChange present) s = .next t
          ∧ t.power.charger = present ∧ t.power.critical = critical ∧ keptBut [.battery] s t)
        ∧ (s.power.entry = some .shelf → s.power.shelfFlush = none → ∃ t, exec (.chgChange present) s = .next t
          ∧ t.power.charger = present ∧ t.power.critical = critical ∧ t.power.entry = some .shelf
          ∧ t.power.attached = (s.power.attached || present) ∧ t.power.shelfCauses = s.power.shelfCauses
          ∧ keptBut [.battery, .shelfEntry] s t))
    ∧ (exec (.chgChange s.power.charger) s = .next s)
    ∧ (s.power.critical.isRunning = true → s.power.entry = none →
        (s.power.state = .bringup → ∃ t, exec .criticalTimerExpiry s = .next t ∧ t.power.criticalRanOut = true
          ∧ t.power.critical = .stopped ∧ keptBut [.battery] s t)
        ∧ (s.power.state = .active ∨ s.power.state = .reading → ∃ t, exec .criticalTimerExpiry s = .next t
          ∧ t.power.critical = .stopped ∧ t.power.dueTimer = true
          ∧ (t.power.entry = some .dormant ∨ t.power.state = .dormant) ∧ keptBut [.battery, .shelfEntry] s t)
        ∧ (s.power.state = .dormant → s.power.heldDue = true → ∃ t, exec .criticalTimerExpiry s = .next t
          ∧ t.power.critical = .stopped ∧ t.power.dueTimer = true ∧ keptBut [.battery, .shelfEntry] s t)
        ∧ (s.power.state = .dormant → s.power.heldDue = false → s.wb.halted = false → s.wb.queue ≠ [] →
          ∃ t, exec .criticalTimerExpiry s = .next t ∧ t.power.critical = .stopped
          ∧ t.power.entry = some .shelf ∧ t.power.shelfCauses = [.criticalTimer]
          ∧ keptBut [.battery, .shelfEntry, .heldWakes] s t))
    ∧ (s.power.critical.isRunning = true → s.power.state ≠ .bringup → s.power.entry = some .dormant →
        ∃ t, exec .criticalTimerExpiry s = .next t ∧ t.power.critical = .stopped ∧ t.power.dueTimer = true
        ∧ (.criticalTimer ∈ t.power.dormantCauses ∨ t.power.entry = none) ∧ keptBut [.battery, .shelfEntry] s t)

/-! ### Faults and stored settings -/

/-- R185, R46 and R138: CLEAR FAULT answers the fields of the record and empties it; write-back and panel drive go on. The
form of the severity (log 24) and of the location of a fault that has none (log 70) is the model's choice. -/
def Obligations.ClearFaultEmptiesTheRecord : Prop :=
  ∀ (f : Frame) (s : State), numbersFresh s → takes .clearFault f s →
    ∃ t, exec (.clearFault f) s = .next t ∧ t.faults = ⟨none, false, false⟩
      ∧ t.wb.halted = false ∧ t.wb.elapsed = s.wb.elapsed
      ∧ t.panel.halted = false ∧ t.panel.ghost = s.panel.ghost ∧ t.panel.nextOrder = s.panel.nextOrder
      ∧ replies .clearFault f .ok (faultItems s.faults) s t ∧ keptBut [.port, .faults, .writeBack, .ghosts] s t

/-- R187 and R189: an image that is not well formed is BAD_IMAGE; another waits for its write. At the end of the write
the image stands in flash, the settings or the waveform table are those of the image, and the request is answered OK;
after a failure it is answered DATA_ERROR, the settings and the table stay, and what flash holds is a free value (log
14). The model's choice: a new ambient table leaves the ambient factor as it is until the next sample (log 52), a
waveform image of a length that no valid image has is BAD_IMAGE (log 61), and the stored size of a reserved flash size
code is the default (log 67). The retirement of expired titles by a new setting is left out here. -/
def Obligations.ImagesAreWritten : Prop :=
  ∀ (f : Frame) (s : State), numbersFresh s →
    (takes .writeSettings f s →
      (settingsWellFormed (Frame.body f) = false →
        exec (.writeSettings f) s = .next (repliedOnly .writeSettings f .badImage [] s))
      ∧ (settingsWellFormed (Frame.body f) = true → ∃ t, exec (.writeSettings f) s = .next t
          ∧ waits .writeSettings f s t ∧ keptBut [.port] s t))
    ∧ (takes .writeWaveforms f s →
      (waveformValid (Frame.body f) = false →
        exec (.writeWaveforms f) s = .next (repliedOnly .writeWaveforms f .badImage [] s))
      ∧ (waveformValid (Frame.body f) = true → ∃ t, exec (.writeWaveforms f) s = .next t
          ∧ waits .writeWaveforms f s t ∧ keptBut [.port] s t))
    ∧ ∀ (cls request : Nat) (image : List Byte), shelfWaits s → s.powered = true →
      (s.port.phase = .busy ⟨cls, false, .settingsWrite request image⟩ →
        let c := formSettings (wordsOf image)
        (c.retireOnExpiry = false ∨ s.settings.retireOnExpiry = true → ∃ t, exec (.settingsWriteEnd true) s = .next t
          ∧ t.flash = { s.flash with settings := image } ∧ t.settings = c ∧ t.storedSize = c.flashSize
          ∧ t.keep = { s.keep with arming := s.keep.arming &&& c.capability }
          ∧ t.panel.ghost = s.panel.ghost.map (fun n => min n c.ghostLimit)
          ∧ (∀ o, s.awaiting request = some o → answeredWith o .ok [] t)
          ∧ keptBut [.flash, .settings, .keepAlive, .ghosts, .turning] s t)
        ∧ ∃ t, exec (.settingsWriteEnd false) s = .next t ∧ t.flash = { s.flash with settings := t.flash.settings }
          ∧ (∀ o, s.awaiting request = some o → answeredWith o .dataError [] t) ∧ keptBut [.flash] s t)
      ∧ (s.port.phase = .busy ⟨cls, false, .waveformWrite request image⟩ →
        (∃ t, exec (.waveformWriteEnd true) s = .next t
          ∧ t.flash = { s.flash with waveform := image }
          ∧ t.waveform = ⟨((wordsOf image).drop 2).take 32, false, wordsOf image⟩
          ∧ (∀ o, s.awaiting request = some o → answeredWith o .ok [] t) ∧ keptBut [.flash, .waveforms] s t)
        ∧ ∃ t, exec (.waveformWriteEnd false) s = .next t ∧ t.flash = { s.flash with waveform := t.flash.waveform }
          ∧ (∀ o, s.awaiting request = some o → answeredWith o .dataError [] t) ∧ keptBut [.flash] s t)

/-! ### Resets and bring-up -/

/-- R6, R53, R80, R99, R120, R132, R140, R156, R180, R191, R194, R196, R203 and section "reset values" of each chapter:
what stands after a cold start. The values of logs 1 to 7 are the model's choice; the bring-up read of the settings is
running. -/
def Obligations.ResetValues : Prop :=
  let s := State.reset
  (∀ h, (s.recordAt h).state = .empty ∧ (s.recordAt h).holds = 0) ∧ s.cat.expiryList = [] ∧ s.cat.reads = []
    ∧ s.blocks.releaseList = [] ∧ s.wb.queue = [] ∧ s.wb.inFlight = none ∧ s.wb.halted = false ∧ s.wb.flushes = []
    ∧ (∀ i : Fin 4, s.dl.slots[i].state = .free ∧ s.dl.buffers[i] = none) ∧ s.dl.tagCounter = 1
    ∧ s.radio = ⟨.noTransfer, 0, 0, 0, 0, 0, 0, 0⟩
    ∧ s.pm.cells = [] ∧ s.pm.errors = [] ∧ (∀ i : Fin 28, s.pm.slots[i].state = .free) ∧ s.pm.held = []
    ∧ s.turn.state = .off ∧ s.turn.title = 0 ∧ s.turn.page = 0 ∧ s.turn.passThrough = false ∧ s.turn.owed = 0
    ∧ s.turn.flight = none ∧ s.turn.change = none ∧ s.turn.refillArmed = true ∧ s.turn.keyQueue = []
    ∧ s.panel.queue = [] ∧ (∀ i : Fin 4, s.panel.lanes[i].state = .idle) ∧ s.panel.zeroKnown = false
    ∧ s.panel.supply = .off ∧ s.panel.halted = false
    ∧ s.light.switch = false ∧ s.light.level = 16 ∧ s.light.warmth = 16384 ∧ s.light.auto = false
    ∧ s.light.warmOutput = 0 ∧ s.light.coolOutput = 0 ∧ s.light.maskCount = 0
    ∧ s.power.state = .bringup ∧ s.power.entry = none ∧ s.power.clock = .full ∧ s.power.residency = 0
    ∧ s.power.fromShelf = false ∧ s.keep.seconds = 0 ∧ s.keep.valid = false ∧ s.keep.alarm = none
    ∧ s.faults = ⟨none, false, false⟩ ∧ s.link.outstanding = [] ∧ s.link.replies = [] ∧ s.link.attention = 0
    ∧ s.pins = ⟨false, false⟩ ∧ s.pending = [] ∧ s.port.phase = .busy ⟨0, false, .bringupRead .settings⟩

/-- R190, R165, R191: a reset. The main domain is at its reset values and bring-up has begun, with the band of the
battery sample: below NORMAL, BATTERY is posted, and in CRITICAL and EXHAUSTED the CRITICAL timer runs without the
charger (R169 to R171). A cold start resets the keep-alive domain too, and a part reset keeps it, unless it has lost its
power; the SHELF marker is copied and cleared. After the loss of the main supply the main domain has no power. Flash
keeps what it holds, but for the unit of an operation that is cut off (R52, R191): of a sector write, one slot of the
sector at least is unreadable, and the rest of it is a free value (log 13). The reset values of logs 1 to 7 are the
model's choice, and so are the built-in waveform table (log 71), the ghost counts 6 (log 47), the creation order 0 (log
48), the candidate band NORMAL (log 58), and that SHELF_WAKE changes nothing outside SHELF (log 10); what stands in the
main domain while it has no power is log 29. -/
def Obligations.ResetsBeginBringUp : Prop :=
  (∀ (inputs : ResetInputs) (s : State),
    let band := if 3600 ≤ inputs.millivolts then Band.normal else if 3450 ≤ inputs.millivolts then .low
      else if 3300 ≤ inputs.millivolts then .critical else .exhausted
    let started := fun keep supplies fromShelf (t : State) => t = { State.reset with
      pending := s.pending, flash := s.flash, freeCount := s.freeCount, keep := keep, supplies := supplies
      link := { State.reset.link with attention := t.link.attention }
      pins := ⟨t.attnCondition, false⟩
      light := { State.reset.light with allowance := t.ceiling - 10 }
      power := { State.reset.power with
        millivolts := inputs.millivolts, charger := inputs.charger, fromShelf := fromShelf, band := band
        critical := if (band = .critical ∨ band = .exhausted) ∧ inputs.charger = false then .running 60000
          else .stopped } }
    let begins := fun command keep supplies fromShelf => ∃ t, exec command s = .next t
      ∧ started keep supplies fromShelf t ∧ ∀ r : Reason, t.reasonSet r = decide (r = .battery ∧ band ≠ .normal)
    (s.running = none →
      (∀ backup, begins (.coldStart inputs backup) KeepAlive.cold ⟨true, backup⟩ false)
      ∧ (s.keep.powered = true → begins (.partReset inputs) { s.keep with shelfMarker := false }
          { s.supplies with main := true } s.keep.shelfMarker))
    ∧ (s.keep.powered = false → exec (.partReset inputs) s = exec (.coldStart inputs s.supplies.backup) s)
    ∧ (s.keep.powered = true → s.supplies.main = true → s.power.state = .shelf →
        exec (.shelfWake inputs) s = exec (.partReset inputs) s)
    ∧ (s.power.state ≠ .shelf → exec (.shelfWake inputs) s = .next s))
  ∧ (∀ (s : State) (vkaStays : Bool), s.supplies.main = true → ∃ t, exec (.mainSupplyLoss vkaStays) s = .next t
      ∧ t.powered = false ∧ t.pins = ⟨false, false⟩ ∧ (s.running = none → t.flash = s.flash) ∧ t.pending = s.pending
      ∧ t.keep = { s.keep with powered := s.keep.powered && s.supplies.backup && vkaStays }
      ∧ t.supplies = { s.supplies with main := false } ∧ t.link.outstanding = [] ∧ t.link.replies = []
      ∧ ∀ h, (t.recordAt h).state = .empty)
  ∧ ∀ (inputs : ResetInputs) (backup vkaStays : Bool) (s : State) (c : Instr), s.supplies.main = true →
      c = .partReset inputs ∨ c = .coldStart inputs backup ∨ c = .mainSupplyLoss vkaStays →
      ∃ t, exec c s = .next t
        ∧ (∀ request image, s.running = some (.settingsWrite request image) →
            settingsWellFormed t.flash.settings = false ∧ t.flash = { s.flash with settings := t.flash.settings })
        ∧ (∀ request image, s.running = some (.waveformWrite request image) →
            waveformValid t.flash.waveform = false ∧ t.flash = { s.flash with waveform := t.flash.waveform })
        ∧ (∀ sector number snapshot, s.running = some (.sectorWrite sector number snapshot) →
            t.flash = { s.flash with slots := t.flash.slots }
            ∧ (∀ i : Fin 1024, i.val / 16 ≠ sector → t.flash.slots[i] = s.flash.slots[i])
            ∧ (snapshot.length = 16 → sector < 64 →
                ∃ i : Fin 1024, i.val / 16 = sector ∧ t.flash.slots[i] = .unreadable))
        ∧ (∀ xfer handle position block, s.running = some (.erase xfer handle position block) →
            t.flash = { s.flash with unknown := t.flash.unknown }
            ∧ ∀ a, a < 65536 * block ∨ 65536 * (block + 1) ≤ a → t.flash.byteAt a = s.flash.byteAt a)
        ∧ (∀ xfer handle index address b, s.running = some (.program xfer handle index address b) →
            t.flash = { s.flash with unknown := t.flash.unknown }
            ∧ ∀ a, a / 65536 ≠ address / 65536 → t.flash.byteAt a = s.flash.byteAt a)

/-- R27, R28, R50, R51, R186, R189, R190: the steps of bring-up. The settings read gives the stored settings, or the
defaults with a SETTINGS fault; the waveform read gives the stored table, or the built-in one with a WAVEFORM fault. A
sector read takes its 16 slots by the table of the rebuild, and the next read waits. After the last one the sectors of the
records left dirty are unwritten, the expiry list is formed, the records that are due expire while time is valid, and with
retirement on expiry the EXPIRED ones are retired. The end of page memory initialisation takes the part to ACTIVE, posting
BRINGUP_DONE and an alarm that has been reached; a CRITICAL timer that ran out begins DORMANT entry with SHELF due. The
ghost counts from the settings read on (log 47) and the stored size of a reserved flash size code (log 67) are the model's
choice. -/
def Obligations.BringUpStepsInOrder : Prop :=
  ∀ (s : State) (cls : Nat), s.powered = true → s.power.state = .bringup → s.power.entry = none →
    let reads := fun (what : BringupRead) (t : State) =>
      ∃ op ∈ t.portOps, op.job = .bringupRead what ∧ op.cls = 0 ∧ op.held = false
    (s.port.phase = .busy ⟨cls, false, .bringupRead .settings⟩ → ∃ t, exec .bringupReadEnd s = .next t
      ∧ t.power.bringup = .waveforms ∧ t.settingsGood = settingsWellFormed s.flash.settings ∧ t.flash = s.flash
      ∧ t.settings = (if t.settingsGood then formSettings (wordsOf s.flash.settings) else Settings.standard)
      ∧ t.storedSize = t.settings.flashSize ∧ t.blocks.size = t.settings.flashSize ∧ t.blocks.releaseList = []
      ∧ t.blocks.conditions = List.replicate t.settings.flashSize.titleBlocks .free
      ∧ t.light.level = t.settings.defaultLevel ∧ t.light.warmth = t.settings.defaultWarmth
      ∧ t.light.auto = t.settings.defaultAuto
      ∧ t.panel.ghost = List.replicate 195 t.settings.ghostLimit
      ∧ t.keep = { s.keep with arming := s.keep.arming &&& t.settings.capability }
      ∧ (t.settingsGood = false → faultTaken .settings (some 4) s t)
      ∧ (t.settingsGood = true → t.faults = s.faults)
      ∧ reads .waveforms t
      ∧ keptBut [.blocks, .ghosts, .lightChoice, .heldWakes, .keepAlive, .faults, .settings, .attention] s t)
    ∧ (s.port.phase = .busy ⟨cls, false, .bringupRead .waveforms⟩ → ∃ t, exec .bringupReadEnd s = .next t
      ∧ t.power.bringup = .rebuild
      ∧ (waveformValid s.flash.waveform = true → t.waveform = waveformOf s.flash.waveform ∧ t.faults = s.faults)
      ∧ (waveformValid s.flash.waveform = false → t.waveform = Waveform.standard ∧ faultTaken .waveform (some 5) s t)
      ∧ reads (.sector 0) t
      ∧ keptBut [.waveforms, .heldWakes, .faults, .attention] s t)
    ∧ (∀ n, n < 63 → s.port.phase = .busy ⟨cls, false, .bringupRead (.sector n)⟩ →
      ∃ t v, exec .bringupReadEnd s = .next t ∧ sectorRebuilt n s v
      ∧ (∀ h, t.recordAt h = v.recordAt h) ∧ t.blocks = v.blocks ∧ t.faults = v.faults
      ∧ t.link.attention = v.link.attention ∧ t.power.bringup = s.power.bringup
      ∧ reads (.sector (n + 1)) t
      ∧ keptBut [.titles, .blocks, .faults, .attention] s t)
    ∧ (s.port.phase = .busy ⟨cls, false, .bringupRead (.sector 63)⟩ → s.cat.reads = [] → s.turn.title = 0 →
      (∀ i : Fin 4, s.dl.slots[i].state = .free) → (∀ i : Fin 28, s.pm.slots[i].state = .free) →
      (∀ h, (s.recordAt h).holds = 0) →
      ∃ t v, exec .bringupReadEnd s = .next t ∧ sectorRebuilt 63 s v
      ∧ t.power.bringup = .pageMemory ∧ t.faults = v.faults
      ∧ t.panel.ghost = List.replicate 195 t.settings.ghostLimit
      ∧ (let due := fun h => s.keep.valid = true ∧ (v.recordAt h).state.expires = true
          ∧ ∃ e, (v.recordAt h).expiry = some e ∧ e ≤ s.keep.seconds
        let retired := fun h => s.settings.retireOnExpiry = true ∧ (due h ∨ (v.recordAt h).state = .expired)
        (∀ h,
          let r := v.recordAt h
          (t.recordAt h).holds = 0
          ∧ (¬due h → ¬retired h → (t.recordAt h).toPersisted = r.toPersisted)
          ∧ (due h → ¬retired h → (t.recordAt h).toPersisted = { r.toPersisted with
              state := .expired
              fetch := if r.state = .fetching then .expired else r.fetch
              revision := r.revision + 1 })
          ∧ (retired h → (t.recordAt h).toPersisted =
                { Persisted.blank with revision := r.revision + if r.state = .expired then 2 else 3 }
              ∧ ∀ e ∈ r.extents, (⟨e, sectorOf h, none⟩ : ReleaseEntry) ∈ t.blocks.releaseList)
          ∧ (h ∈ t.cat.expiryList ↔ ¬due h ∧ r.state.expires = true ∧ r.expiry.isSome = true)
          ∧ (due h → t.reasonSet .titleExpired = true) ∧ (retired h → t.reasonSet .titleRetired = true)
          ∧ (1 ≤ h → h ≤ 1024 → r.dirty = true ∨ due h ∨ retired h → t.unwritten (sectorOf h)))
        ∧ (t.cat.expiryList.Pairwise fun a b => v.expiresBefore a b = true)
        ∧ (s.settings.retireOnExpiry = false → t.blocks = v.blocks))
      ∧ keptBut [.titles, .expiries, .blocks, .ghosts, .heldWakes, .faults, .attention] s t)
    ∧ (s.power.bringup = .pageMemory → ∀ temperature pressed ambient,
      let alarm := s.keep.valid = true ∧ ∃ a, s.keep.alarm = some a ∧ a ≤ s.keep.seconds
      ∃ t, exec (.bringupCompletion temperature pressed ambient) s = .next t
        ∧ t.power.bringup = .complete ∧ t.reasonSet .bringupDone = true
        ∧ (alarm → t.reasonSet .alarm = true ∧ t.keep = { s.keep with alarm := none })
        ∧ (¬alarm → t.reasonSet .alarm = s.reasonSet .alarm ∧ t.keep = s.keep)
        ∧ (s.power.criticalRanOut = false → t.power.state = .active ∧ t.power.entry = none)
        ∧ (s.power.criticalRanOut = true → t.power.dueTimer = true
            ∧ (t.power.entry = some .dormant ∧ t.power.state = .active ∨ t.power.state = .dormant))
        ∧ t.power.criticalRanOut = false
        ∧ t.pm.cells = [] ∧ t.pm.errors = [] ∧ t.pm.held = [] ∧ (∀ i : Fin 28, t.pm.slots[i] = PageSlot.blank)
        ∧ t.keys = ⟨decide (.fwd ∈ pressed), decide (.back ∈ pressed), decide (.light ∈ pressed),
            decide (.power ∈ pressed)⟩
        ∧ t.light.history = (if s.light.refill then List.replicate 4 ambient else s.light.history.drop 1 ++ [ambient])
        ∧ t.wb.elapsed = 0
        ∧ (s.panel.queue = [] → s.power.waiting = [] → t.panel.band =
          if temperature < 5 then 0 else if temperature < 10 then 1 else if temperature < 15 then 2
          else if temperature < 20 then 3 else if temperature < 25 then 4 else if temperature < 30 then 5
          else if temperature < 40 then 6 else 7)
        ∧ keptBut [.pixels, .wordErrors, .slots, .heldWrites, .keyLines, .lightChoice, .writeBack, .heldWakes,
            .attention, .keepAlive, .battery, .shelfEntry] s t)

/-! ### Invariants -/

/-- R194 and R196: every step keeps the request table sound, from any state in which it is: at most 8 requests are
outstanding, each with a tag and a number of its own, the replied ones are those whose replies are queued, and no number
is held twice for a reply. R120: no two queued updates have one creation order. -/
def Obligations.StepsKeepTheRequestTable : Prop := ∀ s t : State, requestsSound s → step s = .next t → requestsSound t

/-- R63, R164 and R202: after every step the lines stand as their conditions say, and a SHELF entry in progress still
waits for its flush, if that was so before. R158, R162, R164: a SHELF entry in progress stands in DORMANT, if that was
so before. -/
def Obligations.StepsKeepTheLines : Prop :=
  (∀ s t : State, linesFollow s → shelfWaits s → step s = .next t → linesFollow t ∧ shelfWaits t)
    ∧ ∀ s t : State, shelfInDormant s → step s = .next t → shelfInDormant t

/-- R20, R40, R96, R105, R120 and R130: every step keeps the queues and counts within their limits. R124, R127 and R132:
it keeps the busy lanes and the entry in admission apart from one another. Of TURN updates, one is queued or driven
while the show of the turn in flight has been made, and none else (R120), and the Turn Engine's state and reason keep to
its title, its pass-through and its turn in flight, as section 5.3 says. -/
def Obligations.StepsKeepTheCounts : Prop := ∀ s t : State, countsSound s → step s = .next t → countsSound t

/-- R2, R7, R25, R30 and R79: every step keeps the catalogue and what names its records sound, from any state in which
they are: no key stands in two records that are not EMPTY; a record is FETCHING exactly when a transfer slot names it;
the expiry list holds the records that expire, in order; every title block is free, of one record or RELEASING; a page
slot in FILLING or READY names a READY record with its generation, at most one slot is SHOWN, and no page identity
stands twice. The SHOWN slot names the current title, or a give-up of it has been sent, whose title is then the former
one (R88; log 21, DEDUCED); its record is READY, EXPIRED or RETIRING, or INCOMPLETE or FETCHING where its last fetch
result is not DONE, which only a flash image brings into READY. -/
def Obligations.StepsKeepTheCatalogue : Prop :=
  ∀ s t : State, catalogueSound s → step s = .next t → catalogueSound t

/-- Every step keeps the byte memories in canonical form. The form is the model's own; the rectangles keep to the rows of
R77, R82 and R117. -/
def Obligations.StepsKeepTheMemories : Prop := ∀ s t : State, memoriesSound s → step s = .next t → memoriesSound t

/-- What every step keeps holds after a cold start. -/
def Obligations.ResetIsSound : Prop :=
  requestsSound State.reset ∧ linesFollow State.reset ∧ shelfWaits State.reset ∧ shelfInDormant State.reset
    ∧ countsSound State.reset
    ∧ memoriesSound State.reset ∧ resourcesSettled State.reset ∧ catalogueSound State.reset
end

