-- ==== Sys2Proof/Laws/Records.lean ====
section
/-! SUPPORT. Reading and replacing title records: what each record operation can do to any record. -/

namespace Sys2Proof.Machine

/-- The record read after a replacement: the new one at its own valid handle, the old one elsewhere. -/
theorem recordAt_setRecord (h g : Nat) (r : TitleRecord) (s : State) :
    (setRecord h r s).recordAt g = if g = h ∧ 1 ≤ h ∧ h ≤ 1024 then r else s.recordAt g := by
  unfold setRecord
  split
  · next hv =>
    unfold State.recordAt
    by_cases e : g = h
    · subst e; simp [hv]
    · by_cases gv : 1 ≤ g ∧ g ≤ 1024
      · simp only [gv, and_self, dite_true, e, false_and, if_false]
        rw [Vector.getElem_set_ne]
        omega
      · simp [gv, e]
  · next hv => simp [hv]

/-- Replacing a record touches the catalogue's records only. -/
theorem setRecord_eq (h : Nat) (r : TitleRecord) (s : State) :
    ∃ records, setRecord h r s = { s with cat.records := records } := by
  unfold setRecord; split <;> exact ⟨_, rfl⟩

/-- A fold of record replacements touches the catalogue's records only. -/
theorem foldl_setRecord_eq (hs : List Nat) (f : State → Nat → TitleRecord) (s : State) :
    ∃ records, hs.foldl (fun t h => setRecord h (f t h) t) s = { s with cat.records := records } := by
  induction hs generalizing s with
  | nil => exact ⟨_, rfl⟩
  | cons h hs ih =>
    obtain ⟨a, ea⟩ := setRecord_eq h (f s h) s
    obtain ⟨b, eb⟩ := ih (setRecord h (f s h) s)
    exact ⟨b, by rw [List.foldl_cons, eb, ea]⟩

/-- Reading a record looks at the catalogue's records only. -/
theorem recordAt_congr {s t : State} (e : t.cat.records = s.cat.records) (h : Nat) : t.recordAt h = s.recordAt h := by
  simp [State.recordAt, e]

/-- Setting dirty flags keeps the persisted fields and the holds of every record. -/
theorem foldl_dirty_kept (d : Bool) (hs : List Nat) (s : State) (g : Nat) :
    ((hs.foldl (fun t h => setRecord h { t.recordAt h with dirty := d } t) s).recordAt g).toPersisted
        = (s.recordAt g).toPersisted
      ∧ ((hs.foldl (fun t h => setRecord h { t.recordAt h with dirty := d } t) s).recordAt g).holds
        = (s.recordAt g).holds := by
  induction hs generalizing s with
  | nil => exact ⟨rfl, rfl⟩
  | cons h hs ih =>
    simp only [List.foldl_cons]
    obtain ⟨a, b⟩ := ih (setRecord h { s.recordAt h with dirty := d } s)
    rw [a, b, recordAt_setRecord]
    split
    · next e => obtain ⟨rfl, _⟩ := e; exact ⟨rfl, rfl⟩
    · exact ⟨rfl, rfl⟩

end Sys2Proof.Machine
end

