-- ==== Sys2Proof/Laws/EndOfEvent.lean ====
section
/-! SUPPORT. What the end of an event keeps: every part of `Part`, unless a SHELF entry ends in it. -/

namespace Sys2Proof.Machine

theorem Part.kept_refl (p : Part) (s : State) : p.kept s s := by
  cases p <;> first | exact fun _ => id | simp [Part.kept]

theorem Part.kept_trans (p : Part) {s t u : State} (a : p.kept s t) (b : p.kept t u) : p.kept s u := by
  cases p <;> simp only [Part.kept] at * <;> first
    | exact b.trans a
    | exact a.trans b
    | exact fun k h => b k (a k h)
    | (intro h; exact ⟨(b h).1.trans (a h).1, (b h).2.trans (a h).2⟩)
    | exact ⟨b.1.trans a.1, b.2.1.trans a.2.1, b.2.2.1.trans a.2.2.1,
        fun i => (b.2.2.2.1 i).trans (a.2.2.2.1 i), fun i => (b.2.2.2.2 i).trans (a.2.2.2.2 i)⟩
    | (simp_all)

/-- Two states that agree in every field that the parts read. -/
theorem Part.kept_of_eq (p : Part) (hp : p.lasting = true) {s t : State}
    (e : t = { s with
      port := t.port, pm.mode := t.pm.mode, panel.queue := t.panel.queue, panel.lanes := t.panel.lanes
      panel.zeroKnown := t.panel.zeroKnown, panel.supply := t.panel.supply, panel.offDelay := t.panel.offDelay
      panel.band := t.panel.band
      wb.flushes := t.wb.flushes, wb.nextWrite := t.wb.nextWrite
      light.forcedDark := t.light.forcedDark, light.maskCount := t.light.maskCount
      light.allowance := t.light.allowance, light.warmTarget := t.light.warmTarget
      light.coolTarget := t.light.coolTarget, light.warmOutput := t.light.warmOutput
      light.coolOutput := t.light.coolOutput, light.autoDim := t.light.autoDim, light.lightOff := t.light.lightOff
      light.ramp := t.light.ramp
      power.state := t.power.state, power.entry := t.power.entry, power.step := t.power.step
      power.dormantCauses := t.power.dormantCauses
      power.heldDue := t.power.heldDue, power.entryFlush := t.power.entryFlush
      power.dormantDelay := t.power.dormantDelay, power.granted := t.power.granted, power.waiting := t.power.waiting
      power.lightClaim := t.power.lightClaim, power.turnBoost := t.power.turnBoost
      power.downloadBoost := t.power.downloadBoost, power.clock := t.power.clock
      power.transfersActive := t.power.transfersActive
      freeCount := t.freeCount, pins := t.pins }) : p.kept s t := by
  rw [e]
  cases p <;> first | exact Bool.noConfusion hp | simp [Part.kept, State.recordAt, State.unwritten]

theorem kept_lightFit (p : Part) (hp : p.lasting = true) (s : State) : p.kept s (lightFit s) := p.kept_of_eq hp rfl

theorem kept_withdrawAdmission (p : Part) (hp : p.lasting = true) (s : State) : p.kept s (withdrawAdmission s) := p.kept_of_eq hp rfl

theorem kept_clockFix (p : Part) (hp : p.lasting = true) (s : State) : p.kept s (clockFix s) := by
  unfold clockFix; simp only; split <;> exact p.kept_of_eq hp rfl

theorem kept_boostDrop (p : Part) (hp : p.lasting = true) (s : State) : p.kept s (boostDrop s) := by
  unfold boostDrop; split <;> exact p.kept_of_eq hp rfl

theorem kept_tidy (p : Part) (hp : p.lasting = true) (s : State) : p.kept s (tidy s) :=
  p.kept_trans (kept_boostDrop p hp s) (p.kept_trans (kept_clockFix p hp _) (kept_lightFit p hp _))

theorem kept_admit (p : Part) (hp : p.lasting = true) (s : State) :
    p.kept s (admitEntry s) := by
  unfold admitEntry
  split
  · split
    · exact p.kept_refl s
    · split <;> exact p.kept_of_eq hp rfl
  · exact p.kept_refl s

theorem kept_grantTo (p : Part) (hp : p.lasting = true) (c : Claim) (s : State) : p.kept s (grantTo c s) := by
  unfold grantTo
  split
  · exact kept_admit p hp s
  · split
    · exact p.kept_of_eq hp rfl
    · exact p.kept_refl s
  · exact p.kept_of_eq hp rfl
  · exact p.kept_of_eq hp rfl

theorem kept_grantHead (p : Part) (hp : p.lasting = true) {s t : State} (e : grantHead s = some t) : p.kept s t := by
  unfold grantHead at e
  split at e
  · cases e
  · split at e
    · cases e
      refine p.kept_trans ?_ (kept_grantTo p hp _ _)
      exact p.kept_of_eq hp rfl
    · cases e

theorem kept_placeClaim (p : Part) (hp : p.lasting = true) (o : ClaimOwner) (n : Nat) (s : State) : p.kept s (placeClaim o n s) :=
  p.kept_of_eq hp rfl

theorem kept_portGranted (p : Part) (hp : p.lasting = true) (job : FlashJob) (s : State) : p.kept s (portGranted job s) := by
  unfold portGranted
  split
  · by_cases hq : p = .reads
    · subst hq
      simp only [Part.kept, List.map_map]
      refine List.map_congr_left fun r _ => ?_
      simp only [Function.comp]
      split <;> rfl
    · cases p <;> first | exact absurd rfl hq | exact Bool.noConfusion hp | simp [Part.kept, State.recordAt, State.unwritten]
  · next b =>
    by_cases hq : p = .transfers
    · subst hq
      refine ⟨rfl, rfl, rfl, fun _ => rfl, fun i => ?_⟩
      by_cases e : i = b
      · subst e
        simp only [setBuffer, Fin.getElem_fin, Vector.getElem_set_self, Option.map_map]
        rfl
      · have : (i : Nat) ≠ (b : Nat) := fun h => e (Fin.ext h)
        simp [setBuffer, Fin.getElem_fin, Vector.getElem_set_ne _ _ this.symm]
    · cases p <;> first | exact absurd rfl hq | exact Bool.noConfusion hp | simp [Part.kept, setBuffer, State.recordAt, State.unwritten]
  · exact p.kept_refl s

theorem kept_choosePort (p : Part) (hp : p.lasting = true) {s t : State} (e : choosePort s = some t) : p.kept s t := by
  unfold choosePort at e
  split at e
  · simp only [Option.map_eq_some_iff] at e
    obtain ⟨op, _, rfl⟩ := e
    refine p.kept_trans (p.kept_trans ?_ (kept_portGranted p hp op.job _)) (kept_placeClaim p hp _ _ _)
    exact p.kept_of_eq hp rfl
  · cases e

theorem kept_choosePanel (p : Part) (hp : p.lasting = true) {s t : State} (e : choosePanel s = some t) : p.kept s t := by
  unfold choosePanel at e
  simp only [Option.map_eq_some_iff] at e
  obtain ⟨_, _, rfl⟩ := e
  exact p.kept_of_eq hp rfl

theorem kept_placeBoost (p : Part) (hp : p.lasting = true) {s t : State} (e : placeBoost s = some t) : p.kept s t := by
  unfold placeBoost at e
  split at e
  · cases e; exact p.kept_of_eq hp rfl
  · cases e

theorem kept_coverSector (p : Part) (hp : p.lasting = true) (sector n : Nat) (s : State) : p.kept s (coverSector sector n s) := by
  cases p <;> first | exact Bool.noConfusion hp | simp [Part.kept, coverSector, State.recordAt, State.unwritten, Function.comp_def]
  intro e _
  split <;> simp

theorem kept_cleanSector (p : Part) (hp : p.lasting = true) (sector : Nat) (s : State) : p.kept s (cleanSector sector s) := by
  by_cases hq : p = .titles
  · subst hq; exact fun g => foldl_dirty_kept false _ s g
  · obtain ⟨_, e⟩ := foldl_setRecord_eq (sectorHandles sector) (fun t h => { t.recordAt h with dirty := false }) s
    unfold cleanSector
    rw [e]
    cases p <;> first | exact absurd rfl hq | exact Bool.noConfusion hp | simp [Part.kept, State.unwritten]

theorem kept_unload (p : Part) (hp : p.lasting = true) (s : State) (idle : s.wb.inFlight = none) : p.kept s (unload s) := by
  unfold unload
  split
  · exact p.kept_refl s
  · next head rest e =>
    by_cases hq : p = .unwritten
    · subst hq
      intro sector h
      rcases h with ⟨q, hq, rfl⟩ | ⟨w, hw, _⟩
      · rw [e] at hq
        rcases List.mem_cons.mp hq with rfl | hq
        · exact Or.inr ⟨_, rfl, rfl⟩
        · exact Or.inl ⟨q, hq, rfl⟩
      · rw [idle] at hw; cases hw
    · refine p.kept_trans (kept_cleanSector p hp head.sector s)
        (p.kept_trans (kept_coverSector p hp head.sector s.wb.nextWrite _) ?_)
      cases p <;> first | exact absurd rfl hq | exact Bool.noConfusion hp | simp [Part.kept, placeOp, State.recordAt]

theorem kept_chooseUnload (p : Part) (hp : p.lasting = true) {s t : State} (e : chooseUnload s = some t) : p.kept s t := by
  unfold chooseUnload at e
  split at e
  · next due =>
    cases e
    refine kept_unload p hp s ?_
    unfold State.unloadDue at due
    split at due
    · cases due
    · simp only [Bool.and_eq_true, Option.isNone_iff_eq_none] at due
      exact due.1.1.2
  · cases e

theorem kept_settleOnce (p : Part) (hp : p.lasting = true) {s t : State} (e : settleOnce s = some t) : p.kept s t := by
  unfold settleOnce at e
  simp only [Option.orElse_eq_or, Option.or_eq_some_iff] at e
  rcases e with e | ⟨_, e | ⟨_, e | ⟨_, e | ⟨_, e⟩⟩⟩⟩
  · exact kept_chooseUnload p hp e
  · exact kept_grantHead p hp e
  · exact kept_choosePort p hp e
  · exact kept_choosePanel p hp e
  · exact kept_placeBoost p hp e

theorem kept_settleBy (p : Part) (hp : p.lasting = true) (fuel : Nat) (s : State) : p.kept s (settleBy fuel s) := by
  induction fuel generalizing s with
  | zero => exact kept_tidy p hp s
  | succ n ih =>
    unfold settleBy
    split
    · exact kept_tidy p hp s
    · next t e => exact p.kept_trans (kept_tidy p hp s) (p.kept_trans (kept_settleOnce p hp e) (ih t))

theorem kept_settle (p : Part) (hp : p.lasting = true) (s : State) : p.kept s (settle s) := kept_settleBy p hp _ s

theorem kept_transferReport (p : Part) (hp : p.lasting = true) (s : State) : p.kept s (transferReport s) := by
  unfold transferReport; simp only; split <;> exact p.kept_of_eq hp rfl

/-! ### The light claim -/

/-- The light claim lies in its range 0..25 where the greater codes of the two channels sum to at most 1023 (log 74). -/
theorem lightClaimOf_le_25 {warm cool warmTarget coolTarget : Nat}
    (h : max warm warmTarget + max cool coolTarget ≤ 1023) : lightClaimOf warm cool warmTarget coolTarget ≤ 25 := by
  unfold lightClaimOf; omega

/-- Channel codes give a light claim of at most 50 (log 74). -/
theorem lightClaimOf_le_50 {warm cool warmTarget coolTarget : Nat} (a : warm ≤ 1023) (b : cool ≤ 1023)
    (c : warmTarget ≤ 1023) (d : coolTarget ≤ 1023) : lightClaimOf warm cool warmTarget coolTarget ≤ 50 := by
  unfold lightClaimOf; omega

/-! ### What the settling of the resources leaves of the Power Controller -/

/-- The Power Controller's record without the budget's claims and the clock. -/
def State.powerRest (s : State) : Power := { s.power with granted := [], waiting := [], lightClaim := 0, clock := .full }

theorem powerRest_lightFit (s : State) : (lightFit s).powerRest = s.powerRest := rfl

theorem powerRest_clockFix (s : State) : (clockFix s).powerRest = s.powerRest := by
  unfold clockFix
  simp only
  split <;> rfl

theorem powerRest_boostDrop (s : State) : (boostDrop s).powerRest = s.powerRest := by
  unfold boostDrop
  split <;> rfl

theorem powerRest_tidy (s : State) : (tidy s).powerRest = s.powerRest := by
  unfold tidy
  rw [powerRest_lightFit, powerRest_clockFix, powerRest_boostDrop]

theorem powerRest_admit (s : State) : (admitEntry s).powerRest = s.powerRest := by
  unfold admitEntry
  split
  · split
    · rfl
    · split <;> rfl
  · rfl

theorem powerRest_grantHead {s t : State} (e : grantHead s = some t) : t.powerRest = s.powerRest := by
  unfold grantHead at e
  split at e
  · cases e
  · split at e
    · cases e
      unfold grantTo
      split
      · rw [powerRest_admit]; rfl
      · split <;> rfl
      · rfl
      · rfl
    · cases e

theorem powerRest_unload (s : State) : (unload s).powerRest = s.powerRest := by
  unfold unload
  split
  · rfl
  · next head _ _ =>
    obtain ⟨_, e⟩ := foldl_setRecord_eq (sectorHandles head.sector) (fun t h => { t.recordAt h with dirty := false }) s
    simp only [cleanSector, e]
    rfl

theorem powerRest_choosePort {s t : State} (e : choosePort s = some t) : t.powerRest = s.powerRest := by
  unfold choosePort at e
  split at e
  · simp only [Option.map_eq_some_iff] at e
    obtain ⟨op, _, rfl⟩ := e
    unfold portGranted
    split <;> rfl
  · cases e

theorem powerRest_settleOnce {s t : State} (e : settleOnce s = some t) : t.powerRest = s.powerRest := by
  unfold settleOnce at e
  simp only [Option.orElse_eq_or, Option.or_eq_some_iff] at e
  rcases e with e | ⟨_, e | ⟨_, e | ⟨_, e | ⟨_, e⟩⟩⟩⟩
  · unfold chooseUnload at e
    split at e
    · cases e; exact powerRest_unload s
    · cases e
  · exact powerRest_grantHead e
  · exact powerRest_choosePort e
  · unfold choosePanel at e
    simp only [Option.map_eq_some_iff] at e
    obtain ⟨_, _, rfl⟩ := e
    rfl
  · unfold placeBoost at e
    split at e
    · cases e; rfl
    · cases e

theorem powerRest_settleBy (fuel : Nat) (s : State) : (settleBy fuel s).powerRest = s.powerRest := by
  induction fuel generalizing s with
  | zero => exact powerRest_tidy s
  | succ n ih =>
    unfold settleBy
    split
    · exact powerRest_tidy s
    · next t e => rw [ih t, powerRest_settleOnce e, powerRest_tidy]

theorem powerRest_settle (s : State) : (settle s).powerRest = s.powerRest := powerRest_settleBy _ s

/-! ### Replies -/

theorem kept_answer (p : Part) (hp : p.lasting = true) (id : Nat) (r : Result) (b : List Byte) (s : State) : p.kept s (answer id r b s) := by
  unfold answer
  split
  · exact p.kept_refl s
  · cases p <;> first | exact Bool.noConfusion hp | simp [Part.kept, State.recordAt, State.unwritten]

theorem kept_answerAll (p : Part) (hp : p.lasting = true) (ids : List Nat) (r : Result) (b : List Byte) (s : State) :
    p.kept s (answerAll ids r b s) := by
  unfold answerAll
  induction ids generalizing s with
  | nil => exact p.kept_refl s
  | cons id ids ih => exact p.kept_trans (kept_answer p hp id r b s) (ih _)

theorem power_answer (id : Nat) (r : Result) (b : List Byte) (s : State) : (answer id r b s).power = s.power := by
  unfold answer; split <;> rfl

theorem power_answerAll (ids : List Nat) (r : Result) (b : List Byte) (s : State) :
    (answerAll ids r b s).power = s.power := by
  unfold answerAll
  induction ids generalizing s with
  | nil => rfl
  | cons id ids ih => exact (ih _).trans (power_answer id r b s)

/-! ### Entries -/

theorem kept_suspendTransfers (p : Part) (hp : p.lasting = true) (s : State) : p.kept s (suspendTransfers s) := by
  by_cases hq : p = .transfers
  · subst hq
    refine ⟨rfl, rfl, rfl, fun i => ?_, fun _ => rfl⟩
    simp only [suspendTransfers, Fin.getElem_fin, Vector.getElem_map]
    split <;> rfl
  · cases p <;> first | exact absurd rfl hq | exact Bool.noConfusion hp | simp [Part.kept, suspendTransfers, State.recordAt, State.unwritten]

theorem kept_demandFlush_entry (p : Part) (hp : p.lasting = true) (s : State) : p.kept s (demandFlush .dormantEntry s) := by
  unfold demandFlush
  split
  · exact p.kept_of_eq hp rfl
  · split <;> exact p.kept_of_eq hp rfl

theorem kept_reachDormant (p : Part) (hp : p.lasting = true) (how : FlushEnd) (s : State) : p.kept s (reachDormant how s) := by
  unfold reachDormant
  refine p.kept_trans ?_ (kept_answerAll p hp _ _ _ _)
  simp only
  split <;> exact p.kept_of_eq hp rfl

theorem kept_advanceEntry (p : Part) (hp : p.lasting = true) {s t : State} (e : advanceEntry s = some t) : p.kept s t := by
  unfold advanceEntry at e
  split at e
  · split at e
    · split at e
      · cases e
      · cases e; exact p.kept_of_eq hp rfl
    · split at e
      · cases e
        exact p.kept_trans (t := { s with power.step := some .transfers }) (p.kept_of_eq hp rfl) (kept_suspendTransfers p hp _)
      · cases e
    · split at e
      · cases e
      · cases e
        exact p.kept_trans (t := { s with power.step := some .flush }) (p.kept_of_eq hp rfl) (kept_demandFlush_entry p hp _)
    · simp only [Option.map_eq_some_iff] at e
      obtain ⟨how, _, rfl⟩ := e
      exact kept_reachDormant p hp how s
    · cases e
  · cases e

theorem kept_entryWalk (p : Part) (hp : p.lasting = true) (fuel : Nat) (s : State) : p.kept s (entryWalk fuel s) := by
  induction fuel generalizing s with
  | zero => exact p.kept_refl s
  | succ n ih =>
    unfold entryWalk
    split
    · exact p.kept_refl s
    · next t e =>
      exact p.kept_trans (kept_advanceEntry p hp e)
        (p.kept_trans (kept_transferReport p hp t) (p.kept_trans (kept_settle p hp _) (ih _)))

/-! ### SHELF entries -/

theorem shelfWaits_of_power {s t : State} (e : t.powerRest = s.powerRest) (w : shelfWaits s) : shelfWaits t := by
  have a : t.powerRest.entry = s.powerRest.entry := congrArg Power.entry e
  have b : t.powerRest.shelfFlush = s.powerRest.shelfFlush := congrArg Power.shelfFlush e
  intro h
  exact b.trans (w (a.symm.trans h))

theorem shelfWaits_settle {s : State} (w : shelfWaits s) : shelfWaits (settle s) :=
  shelfWaits_of_power (powerRest_settle s) w

theorem shelfWaits_transferReport {s : State} (w : shelfWaits s) : shelfWaits (transferReport s) := by
  unfold transferReport
  simp only
  split
  · intro h; simp [beginDormant, withdrawAdmission, withdrawClaim] at h
  · exact w

theorem noShelf_reachDormant (how : FlushEnd) (s : State) : (reachDormant how s).power.entry = none := by
  unfold reachDormant
  rw [power_answerAll]
  simp only
  split <;> rfl

theorem entry_demandFlush_entry (s : State) : (demandFlush .dormantEntry s).power.entry = s.power.entry := by
  unfold demandFlush
  split
  · rfl
  · split <;> rfl

theorem noShelf_advanceEntry {s t : State} (e : advanceEntry s = some t) : t.power.entry ≠ some .shelf := by
  unfold advanceEntry at e
  split at e
  · next he =>
    split at e
    · split at e
      · cases e
      · cases e; simp [he]
    · split at e
      · cases e; simp [suspendTransfers, he]
      · cases e
    · split at e
      · cases e
      · cases e; simp [entry_demandFlush_entry, he]
    · simp only [Option.map_eq_some_iff] at e
      obtain ⟨how, _, rfl⟩ := e
      simp [noShelf_reachDormant]
    · cases e
  · cases e

theorem shelfWaits_entryWalk (fuel : Nat) {s : State} (w : shelfWaits s) : shelfWaits (entryWalk fuel s) := by
  induction fuel generalizing s with
  | zero => exact w
  | succ n ih =>
    unfold entryWalk
    split
    · exact w
    · next t e =>
      exact ih (shelfWaits_settle (shelfWaits_transferReport fun h => absurd h (noShelf_advanceEntry e)))

theorem shelfEnd_waits {s : State} (w : shelfWaits s) : shelfEnd s = s := by
  unfold shelfEnd
  split
  · next h => simp [w h]
  · rfl

/-- While no SHELF entry ends, the end of an event keeps every part. -/
theorem kept_conclude (p : Part) (hp : p.lasting = true) {s : State} (w : shelfWaits s) : p.kept s (conclude s) := by
  unfold conclude
  rw [shelfEnd_waits w]
  exact p.kept_trans (kept_transferReport p hp s)
    (p.kept_trans (kept_settle p hp _) (p.kept_trans (kept_entryWalk p hp 8 _) (p.kept_of_eq hp rfl)))

/-- A frame that names fewer parts of those that last says more. -/
theorem keptBut_mono {few more : List Part} (h : few.all (fun p => !p.lasting || more.contains p) = true) {s t : State}
    (k : keptBut few s t) : keptBut more s t := fun p hl hp => k p hl fun m => hp (by
  have := List.all_eq_true.mp h p m
  simp only [hl, Bool.not_true, Bool.false_or] at this
  simpa using this)

end Sys2Proof.Machine
end

