-- ==== Sys2Proof/Laws/EndReplies.lean ====
section
/-! SUPPORT. The end of an event answers nothing while no entry is in progress. -/

namespace Sys2Proof.Machine

theorem link_tidy (s : State) : (tidy s).link = s.link := by
  unfold tidy boostDrop clockFix
  simp only
  split <;> split <;> rfl

theorem link_admit (s : State) : (admitEntry s).link = s.link := by
  unfold admitEntry
  split
  · split
    · rfl
    · split <;> rfl
  · rfl

theorem link_grantHead {s t : State} (e : grantHead s = some t) : t.link = s.link := by
  unfold grantHead at e
  split at e
  · cases e
  · split at e
    · cases e
      unfold grantTo
      split
      · rw [link_admit]
      · split <;> rfl
      · rfl
      · rfl
    · cases e

theorem link_unload (s : State) : (unload s).link = s.link := by
  unfold unload
  split
  · rfl
  · next head _ _ =>
    obtain ⟨_, e⟩ := foldl_setRecord_eq (sectorHandles head.sector) (fun t h => { t.recordAt h with dirty := false }) s
    simp only [cleanSector, e]
    rfl

theorem link_choosePort {s t : State} (e : choosePort s = some t) : t.link = s.link := by
  unfold choosePort at e
  split at e
  · simp only [Option.map_eq_some_iff] at e
    obtain ⟨op, _, rfl⟩ := e
    unfold portGranted
    split <;> rfl
  · cases e

theorem link_settleOnce {s t : State} (e : settleOnce s = some t) : t.link = s.link := by
  unfold settleOnce at e
  simp only [Option.orElse_eq_or, Option.or_eq_some_iff] at e
  rcases e with e | ⟨_, e | ⟨_, e | ⟨_, e | ⟨_, e⟩⟩⟩⟩
  · unfold chooseUnload at e
    split at e
    · cases e; exact link_unload s
    · cases e
  · exact link_grantHead e
  · exact link_choosePort e
  · unfold choosePanel at e
    simp only [Option.map_eq_some_iff] at e
    obtain ⟨_, _, rfl⟩ := e
    rfl
  · unfold placeBoost at e
    split at e
    · cases e; rfl
    · cases e

theorem link_settleBy (fuel : Nat) (s : State) : (settleBy fuel s).link = s.link := by
  induction fuel generalizing s with
  | zero => exact link_tidy s
  | succ n ih =>
    unfold settleBy
    split
    · exact link_tidy s
    · next t e => rw [ih t, link_settleOnce e, link_tidy]

theorem link_settle (s : State) : (settle s).link = s.link := link_settleBy _ s

/-- No ENTER DORMANT waits for the entry in progress. -/
def noneWaits (s : State) : Prop :=
  s.power.entry = some .dormant → ∀ c ∈ s.power.dormantCauses, ∀ request, c ≠ .enterDormant request

theorem noneWaits_of_power {s t : State} (e : t.powerRest = s.powerRest) (w : noneWaits s) : noneWaits t := by
  have a : t.powerRest.entry = s.powerRest.entry := congrArg Power.entry e
  have b : t.powerRest.dormantCauses = s.powerRest.dormantCauses := congrArg Power.dormantCauses e
  intro h
  exact b ▸ w (a.symm.trans h)

theorem link_transferReport (s : State) : (transferReport s).link = s.link := by
  unfold transferReport
  simp only
  split <;> rfl

theorem noneWaits_transferReport {s : State} (w : noneWaits s) : noneWaits (transferReport s) := by
  unfold transferReport
  simp only
  split
  · intro _ c hc request
    simp only [beginDormant, withdrawAdmission, withdrawClaim, List.mem_singleton] at hc
    simp [hc]
  · exact w

theorem power_demandFlush_entry (s : State) :
    ∃ how, (demandFlush .dormantEntry s).power = { s.power with entryFlush := how } ∧
      (demandFlush .dormantEntry s).link = s.link := by
  unfold demandFlush
  split
  · exact ⟨_, rfl, rfl⟩
  · split
    · exact ⟨_, rfl, rfl⟩
    · exact ⟨s.power.entryFlush, rfl, rfl⟩

theorem noneWaits_advanceEntry {s t : State} (w : noneWaits s) (e : advanceEntry s = some t) :
    noneWaits t ∧ t.link = s.link := by
  unfold advanceEntry at e
  split at e
  · next he =>
    split at e
    · split at e
      · cases e
      · cases e; exact ⟨w, rfl⟩
    · split at e
      · cases e; exact ⟨w, rfl⟩
      · cases e
    · split at e
      · cases e
      · cases e
        obtain ⟨_, a, b⟩ := power_demandFlush_entry { s with power.step := some .flush }
        refine ⟨?_, b⟩
        unfold noneWaits
        rw [a]
        exact w
    · simp only [Option.map_eq_some_iff] at e
      obtain ⟨how, _, rfl⟩ := e
      constructor
      · intro h; simp [noShelf_reachDormant] at h
      · unfold reachDormant
        simp only
        rw [List.filterMap_eq_nil_iff.mpr]
        · simp only [answerAll, List.foldl_nil]
          split <;> rfl
        · intro c hc
          have := w he c hc
          cases c <;> simp_all
    · cases e
  · cases e

theorem link_entryWalk (fuel : Nat) {s : State} (w : noneWaits s) : (entryWalk fuel s).link = s.link := by
  induction fuel generalizing s with
  | zero => rfl
  | succ n ih =>
    unfold entryWalk
    split
    · rfl
    · next t e =>
      obtain ⟨a, b⟩ := noneWaits_advanceEntry w e
      rw [ih (noneWaits_of_power (powerRest_settle _) (noneWaits_transferReport a)), link_settle,
        link_transferReport, b]

/-- While no entry is in progress, the end of an event leaves the host link as it is. -/
theorem link_conclude {s : State} (idle : s.power.entry = none) : (conclude s).link = s.link := by
  have w : noneWaits s := fun h => by rw [idle] at h; cases h
  have v : shelfWaits s := fun h => by rw [idle] at h; cases h
  unfold conclude
  rw [shelfEnd_waits v]
  show (entryWalk 8 _).link = _
  rw [link_entryWalk 8 (noneWaits_of_power (powerRest_settle _) (noneWaits_transferReport w)), link_settle,
    link_transferReport]

end Sys2Proof.Machine
end

