-- ==== Sys2Proof/Laws/Requests.lean ====
section
/-! SUPPORT. What the Host Link Port does with a request that it takes. -/

namespace Sys2Proof.Machine

/-- The reply to a fresh number: it joins the queue, and the request is replied. -/
theorem answer_accept {code : RequestCode} {f : Frame} {s u : State} (fresh : numbersFresh s)
    (e : u.link = (accept code f (endFetch s)).link) (result : Result) (payload : List Byte) :
    answer s.link.nextId result payload u =
      { u with
        link.replies := s.link.replies ++ [⟨f.tag, some code, result, payload⟩]
        link.outstanding := s.link.outstanding ++ [⟨s.link.nextId, f.tag, code, true⟩] } := by
  have old : ∀ o ∈ s.link.outstanding, ¬(o.id = s.link.nextId) := fun o ho h => by
    have := fresh o ho; omega
  have find : s.link.outstanding.find? (fun o => o.id == s.link.nextId && !o.replied) = none := by
    rw [List.find?_eq_none]
    intro o ho
    simp [old o ho]
  have map : s.link.outstanding.map (fun p => if p.id = s.link.nextId then { p with replied := true } else p)
      = s.link.outstanding := by
    refine (List.map_congr_left fun o ho => ?_).trans (List.map_id s.link.outstanding)
    simp [old o ho]
  unfold answer
  rw [e]
  simp [accept, endFetch, List.find?_append, find, map]

/-- With no part reset due, a transaction only ends the fetch of the one before it. -/
theorem beginTransaction_of {s : State} (e : s.link.restart = false) : beginTransaction s = endFetch s := by
  simp [beginTransaction, e]

/-- A request that the port takes. -/
theorem hostRequest_takes {code : RequestCode} {f : Frame} {s : State} (h : takes code f s)
    (own : Nat → State → Verdict) :
    hostRequest code f own s =
      .next (shiftOut .accepted f.tag none (serve s.link.nextId none own (accept code f (endFetch s)))) := by
  obtain ⟨a, r, b, c⟩ := h
  have b' : (endFetch s).refusal code f = none := b
  have c' : (endFetch s).portAnswer code f = none := c
  simp only [hostRequest, a, beginTransaction_of r, b', c', if_true]
  rfl

/-- A request that the port takes and its owner answers at once, changing nothing else. -/
theorem hostRequest_answered {code : RequestCode} {f : Frame} {s : State} {own : Nat → State → Verdict}
    {result : Result} {payload : List Byte} (h : takes code f s) (fresh : numbersFresh s)
    (e : own s.link.nextId (accept code f (endFetch s)) = .answered result payload) :
    hostRequest code f own s = .next (repliedOnly code f result payload s) := by
  rw [hostRequest_takes h]
  simp only [serve, e, answer_accept fresh rfl]
  simp only [repliedOnly, shiftOut, refreshPins, State.status, accept, endFetch, List.length_append, List.length_cons,
    List.length_nil]
  rfl

/-- A request that the port takes and its owner acts on. -/
theorem hostRequest_acted {code : RequestCode} {f : Frame} {s u : State} {own : Nat → State → Verdict}
    (h : takes code f s) (e : own s.link.nextId (accept code f (endFetch s)) = .acted u) :
    hostRequest code f own s = .next (shiftOut .accepted f.tag none (conclude u)) := by
  rw [hostRequest_takes h]
  simp [serve, e]

/-- The state that a request's rule works on keeps everything but the port. -/
theorem kept_accept (p : Part) (hp : p ≠ .port) (ho : p ≠ .outstanding) (code : RequestCode) (f : Frame) (s : State) :
    p.kept s (accept code f (endFetch s)) := by
  cases p <;> first | exact absurd rfl hp | exact absurd rfl ho | simp [Part.kept, accept, endFetch, State.recordAt, State.unwritten]

theorem kept_shiftOut (p : Part) (hp : p ≠ .port) (c : Immediate) (tag : Fin 16) (r : Option Reply) (s : State) :
    p.kept s (shiftOut c tag r s) := by
  cases p <;> first | exact absurd rfl hp | simp [Part.kept, shiftOut, State.recordAt, State.unwritten]

/-- The port hands a request over only with no entry in progress and outside DORMANT, unless R166 takes it asleep. -/
theorem takes_awake {code : RequestCode} {f : Frame} {s : State} (h : takes code f s)
    (c : code.takenAsleep = false) : s.asleep = false := by
  obtain ⟨_, _, _, a⟩ := h
  unfold State.portAnswer at a
  by_cases z : s.asleep = true
  · simp [z, c] at a
  · simpa using z

theorem takes_noEntry {code : RequestCode} {f : Frame} {s : State} (h : takes code f s)
    (c : code.takenAsleep = false) : s.power.entry = none := by
  have := takes_awake h c
  unfold State.asleep at this
  simp only [Bool.or_eq_false_iff] at this
  cases e : s.power.entry with
  | none => rfl
  | some _ => simp [e] at this

/-- What the next state of a request that its owner acts on has in common with the owner's state. -/
theorem hostRequest_next {code : RequestCode} {f : Frame} {s u : State} {own : Nat → State → Verdict}
    (h : takes code f s) (e : own s.link.nextId (accept code f (endFetch s)) = .acted u) (w : shelfWaits u) :
    ∃ t, hostRequest code f own s = .next t ∧ (∀ p : Part, p.lasting = true → p ≠ .port → p.kept u t)
      ∧ (u.power.entry = none → t.link.replies = u.link.replies ∧ t.link.outstanding = u.link.outstanding)
      ∧ t.link.restart = u.link.restart :=
  ⟨_, hostRequest_acted h e,
    fun p hl hp => p.kept_trans (kept_conclude p hl w) (kept_shiftOut p hp _ _ _ _),
    fun i => ⟨by show (conclude u).link.replies = _; rw [link_conclude i],
      by show (conclude u).link.outstanding = _; rw [link_conclude i]⟩,
    (kept_conclude .port rfl w).2.2.1⟩

/-- What the next state of an event has in common with the state that its rule gives. -/
theorem happen_next {s u : State} {o : Option State} (e : o = some u) (w : shelfWaits u) :
    ∃ t, happen s o = .next t ∧ (∀ p : Part, p.lasting = true → p.kept u t) ∧ (u.power.entry = none → t.link = u.link) :=
  ⟨conclude u, by simp [happen, e], fun p hl => kept_conclude p hl w, fun i => link_conclude i⟩

end Sys2Proof.Machine
end

