-- ==== Sys2Proof/Laws/Effects.lean ====
section
/-! SUPPORT. What each shared operation can change: every part of the state but those that its lemma names. -/

namespace Sys2Proof.Machine

/-! ### Flags, records and the port -/

theorem kept_post (r : Reason) (p : Part) (hp : p ∉ [Part.attention]) (s : State) : p.kept s (post r s) := by
  cases p <;> first | (exfalso; simp at hp; done) | simp [Part.kept, post, State.recordAt, State.unwritten]

theorem kept_reportFault (k : FaultKind) (l : Option Nat) (p : Part) (hp : p ∉ [Part.faults, .attention]) (s : State) :
    p.kept s (reportFault k l s) := by
  unfold reportFault
  split
  · refine p.kept_trans ?_ (kept_post _ p (by simp_all) _)
    cases p <;> first | (exfalso; simp at hp; done) | simp [Part.kept, State.recordAt, State.unwritten]
  · have a : p.kept s { s with
        faults.further := true, faults.furtherSevere := s.faults.furtherSevere || k.severe } := by
      cases p <;> first | (exfalso; simp at hp; done) | simp [Part.kept, State.recordAt, State.unwritten]
    simp only
    split
    · exact p.kept_trans a (kept_post _ p (by simp_all) _)
    · exact a

theorem kept_reply (id : Nat) (r : Result) (b : List Byte) (p : Part) (hp : p ∉ [Part.outstanding]) (s : State) :
    p.kept s (answer id r b s) := by
  unfold answer
  split
  · exact p.kept_refl s
  · cases p <;> first | (exfalso; simp at hp; done) | simp [Part.kept, State.recordAt, State.unwritten]

theorem kept_replies (ids : List Nat) (r : Result) (b : List Byte) (p : Part) (hp : p ∉ [Part.outstanding])
    (s : State) : p.kept s (answerAll ids r b s) := by
  unfold answerAll
  induction ids generalizing s with
  | nil => exact p.kept_refl s
  | cons id ids ih => exact p.kept_trans (kept_reply id r b p hp s) (ih _)

theorem kept_setRecord (h : Nat) (r : TitleRecord) (p : Part) (hp : p ∉ [Part.titles, .dirtyFlags]) (s : State) :
    p.kept s (setRecord h r s) := by
  obtain ⟨_, e⟩ := setRecord_eq h r s
  rw [e]
  cases p <;> first | (exfalso; simp at hp; done) | simp [Part.kept, State.unwritten]

theorem kept_reportSector (n : Nat) (p : Part) (hp : p ∉ [Part.sectorWrites]) (s : State) :
    p.kept s (reportSector n s) := by
  unfold reportSector
  split
  · exact p.kept_refl s
  · by_cases hq : p = .unwritten
    · subst hq
      rintro sector (⟨e, he, rfl⟩ | h)
      · exact Or.inl ⟨e, List.mem_append_left _ he, rfl⟩
      · exact Or.inr h
    · cases p <;> first | (exfalso; simp at hp; done) | exact absurd rfl hq | simp [Part.kept, State.recordAt]

theorem kept_changeRecord (h : Nat) (f : Persisted → Persisted) (p : Part)
    (hp : p ∉ [Part.titles, .dirtyFlags, .sectorWrites]) (s : State) : p.kept s (changeRecord h f s) := by
  unfold changeRecord
  split
  · exact p.kept_trans (kept_setRecord h _ p (by simp_all) s) (kept_reportSector _ p (by simp_all) _)
  · exact p.kept_refl s

theorem kept_editRecord (h : Nat) (f : Persisted → Persisted) (p : Part)
    (hp : p ∉ [Part.titles, .dirtyFlags, .sectorWrites]) (s : State) : p.kept s (editRecord h f s) := by
  unfold editRecord
  split
  · exact p.kept_refl s
  · exact kept_changeRecord h f p hp s

theorem kept_setHolds (h n : Nat) (p : Part) (hp : p ∉ [Part.titles, .dirtyFlags]) (s : State) :
    p.kept s (setHolds h n s) := kept_setRecord h _ p hp s

theorem kept_giveBack (o : ClaimOwner) (p : Part) (hp : p ∉ [Part.budget]) (s : State) : p.kept s (giveBack o s) := by
  cases p <;> first | (exfalso; simp at hp; done) | simp [Part.kept, giveBack, State.recordAt, State.unwritten]

theorem kept_withdrawClaim (o : ClaimOwner) (p : Part) (hp : p ∉ [Part.budget]) (s : State) :
    p.kept s (withdrawClaim o s) := by
  cases p <;> first | (exfalso; simp at hp; done) | simp [Part.kept, withdrawClaim, State.recordAt, State.unwritten]

theorem kept_placeOp (c : Nat) (held : Bool) (j : FlashJob) (p : Part) (hp : p ∉ [Part.flashPort]) (s : State) :
    p.kept s (placeOp c held j s) := by
  cases p <;> first | (exfalso; simp at hp; done) | simp [Part.kept, placeOp, State.recordAt, State.unwritten]

theorem kept_withdrawOps (w : FlashJob → Bool) (p : Part) (hp : p ∉ [Part.flashPort]) (s : State) :
    p.kept s (withdrawOps w s) := by
  cases p <;> first | (exfalso; simp at hp; done) | simp [Part.kept, withdrawOps, State.recordAt, State.unwritten]

theorem kept_endOperation (p : Part) (hp : p ∉ [Part.flashPort, .budget]) (s : State) : p.kept s (endOperation s) := by
  cases p <;> first
    | (exfalso; simp at hp; done)
    | simp [Part.kept, endOperation, giveBack, State.recordAt, State.unwritten]

/-! ### The light -/

theorem kept_takeAmbient (n : Nat) (p : Part) (hp : p ∉ [Part.lightChoice]) (s : State) : p.kept s (takeAmbient n s) := by
  cases p <;> first | (exfalso; simp at hp; done) | simp [Part.kept, takeAmbient, State.recordAt, State.unwritten]

theorem kept_lightActivity (p : Part) (hp : p ∉ [Part.lightChoice, .lightTimers]) (s : State) :
    p.kept s (lightActivity s) := by
  unfold lightActivity
  split <;>
    (cases p <;> first | (exfalso; simp at hp; done) | simp [Part.kept, State.recordAt, State.unwritten])

theorem kept_lightPress (p : Part) (hp : p ∉ [Part.lightChoice, .lightTimers]) (s : State) : p.kept s (lightPress s) := by
  unfold lightPress
  split
  · split <;>
      (cases p <;> first | (exfalso; simp at hp; done) | simp [Part.kept, State.recordAt, State.unwritten])
  · cases p <;> first | (exfalso; simp at hp; done) | simp [Part.kept, State.recordAt, State.unwritten]

theorem kept_rampOnce (p : Part) (hp : p ∉ [Part.lightOutputs]) (s : State) : p.kept s (rampOnce s) := by
  cases p <;> first | (exfalso; simp at hp; done) | simp [Part.kept, rampOnce, State.recordAt, State.unwritten]

/-! ### Turning -/

theorem kept_queueKey (e : KeyEvent) (r : KeyReason) (p : Part) (hp : p ∉ [Part.turning, .attention]) (s : State) :
    p.kept s (queueKey e r s) := by
  unfold queueKey
  split
  · refine p.kept_trans ?_ (kept_post _ p (by simp_all) _)
    cases p <;> first | (exfalso; simp at hp; done) | simp [Part.kept, State.recordAt, State.unwritten]
  · exact kept_post _ p (by simp_all) s

theorem kept_queueOwed (k : Key) (r : KeyReason) (n : Nat) (p : Part) (hp : p ∉ [Part.turning, .attention]) (s : State) :
    p.kept s (queueOwed k r n s) := by
  induction n generalizing s with
  | zero => exact p.kept_refl s
  | succ n ih => exact p.kept_trans (kept_queueKey _ r p hp s) (ih _)

theorem kept_handOverOwed (r : KeyReason) (p : Part) (hp : p ∉ [Part.turning, .attention]) (s : State) :
    p.kept s (handOverOwed r s) := by
  refine p.kept_trans (kept_queueOwed (owedKey s.turn.owed) r s.turn.owed.natAbs p hp s) ?_
  cases p <;> first | (exfalso; simp at hp; done) | simp [Part.kept, handOverOwed, State.recordAt, State.unwritten]

theorem kept_reportAhead (b : State) (p : Part) (hp : p ∉ [Part.turning]) (s : State) : p.kept s (reportAhead b s) := by
  unfold reportAhead
  split
  · cases p <;> first | (exfalso; simp at hp; done) | simp [Part.kept, State.recordAt, State.unwritten]
  · exact p.kept_refl s

theorem kept_turn (t : TurnEngine) (p : Part) (hp : p ∉ [Part.turning]) (s : State) : p.kept s { s with turn := t } := by
  cases p <;> first | (exfalso; simp at hp; done) | simp [Part.kept, State.recordAt, State.unwritten]

theorem kept_refillTest (p : Part) (hp : p ∉ [Part.turning, .attention]) (s : State) : p.kept s (refillTest s) := by
  unfold refillTest
  split
  · split
    · exact p.kept_trans (kept_turn _ p (by simp_all) s) (kept_post _ p (by simp_all) _)
    · exact p.kept_refl s
  · exact kept_turn _ p (by simp_all) s

theorem kept_endTurnBoost (p : Part) (hp : p ∉ [Part.boosts]) (s : State) : p.kept s (endTurnBoost s) := by
  cases p <;> first | (exfalso; simp at hp; done) | simp [Part.kept, endTurnBoost, State.recordAt, State.unwritten]

theorem kept_raiseTurnBoost (p : Part) (hp : p ∉ [Part.boosts]) (s : State) : p.kept s (raiseTurnBoost s) := by
  unfold raiseTurnBoost
  split
  · cases p <;> first | (exfalso; simp at hp; done) | simp [Part.kept, State.recordAt, State.unwritten]
  · exact p.kept_refl s

theorem kept_raiseDownloadBoost (p : Part) (hp : p ∉ [Part.boosts]) (s : State) : p.kept s (raiseDownloadBoost s) := by
  unfold raiseDownloadBoost
  split
  · cases p <;> first | (exfalso; simp at hp; done) | simp [Part.kept, State.recordAt, State.unwritten]
  · exact p.kept_refl s

theorem kept_queuePress (o : TurnOrigin) (r : KeyReason) (p : Part) (hp : p ∉ [Part.turning, .attention]) (s : State) :
    p.kept s (queuePress o r s) := by
  unfold queuePress
  split
  · exact kept_queueKey _ r p hp s
  · exact kept_queueKey _ r p hp s
  · exact p.kept_refl s

theorem kept_startTurn (page : Nat) (d : TurnDirection) (e : TurnOrigin) (p : Part)
    (hp : p ∉ [Part.turning, .attention]) (s : State) : p.kept s (startTurn page d e s) := by
  unfold startTurn
  split
  · split
    · exact p.kept_trans (kept_turn _ p (by simp_all) s)
        (p.kept_trans (kept_queuePress e _ p hp _) (kept_post _ p (by simp_all) _))
    · exact kept_turn _ p (by simp_all) s
  · exact p.kept_trans (kept_turn _ p (by simp_all) s)
      (p.kept_trans (kept_queuePress e _ p hp _) (kept_post _ p (by simp_all) _))

theorem kept_turnKey (e : KeyEvent) (p : Part) (hp : p ∉ [Part.turning, .attention]) (s : State) :
    p.kept s (turnKey e s) := by
  unfold turnKey
  simp only
  split
  · exact kept_queueKey e _ p hp s
  · exact kept_queueKey e _ p hp s
  · exact kept_queueKey e _ p hp s
  · split <;> exact kept_turn _ p (by simp_all) s
  · split
    · split
      · exact kept_startTurn _ _ _ p hp s
      · exact p.kept_refl s
    · split
      · exact kept_startTurn _ _ _ p hp s
      · exact p.kept_refl s

theorem kept_answerOrigin (f : TurnFlight) (r : Result) (b : List Byte) (p : Part) (hp : p ∉ [Part.outstanding])
    (s : State) : p.kept s (answerOrigin f r b s) := by
  unfold answerOrigin
  split
  · exact kept_reply _ r b p hp s
  · exact p.kept_refl s
  · exact p.kept_refl s

theorem kept_sendGiveUp (p : Part) (hp : p ∉ [Part.turning]) (s : State) : p.kept s (sendGiveUp s) :=
  kept_turn _ p hp s

theorem kept_stopAtFailure (p : Part) (hp : p ∉ [Part.turning, .attention]) (s : State) : p.kept s (stopAtFailure s) := by
  unfold stopAtFailure
  split
  · refine p.kept_trans ?_ (p.kept_trans (kept_post _ p (by simp_all) _) (kept_handOverOwed _ p hp _))
    split
    · exact p.kept_refl s
    · exact kept_turn _ p (by simp_all) s
  · exact p.kept_refl s

/-- The parts that the end of a turn can change. -/
def turnParts : List Part := [.turning, .attention, .boosts, .outstanding]

theorem kept_turnFailed (r : Result) (p : Part) (hp : p ∉ turnParts) (s : State) : p.kept s (turnFailed r s) := by
  unfold turnParts at hp
  unfold turnFailed
  split
  · exact p.kept_refl s
  · next f _ =>
    exact p.kept_trans (kept_turn _ p (by simp_all) s) (p.kept_trans (kept_sendGiveUp p (by simp_all) _)
      (p.kept_trans (kept_stopAtFailure p (by simp_all) _) (p.kept_trans (kept_endTurnBoost p (by simp_all) _)
        (kept_answerOrigin f r [] p (by simp_all) _))))

theorem kept_showFailed (p : Part) (hp : p ∉ turnParts) (s : State) : p.kept s (showFailed s) := by
  unfold turnParts at hp
  have set : ∀ (c : Prop) [Decidable c] (x y : State), p.kept s x → p.kept s y → p.kept s (if c then x else y) := by
    intro c _ x y a b; split <;> assumption
  unfold showFailed
  split
  · exact p.kept_refl s
  · next f _ =>
    have t0 := kept_turn { s.turn with flight := none } p (by simp_all) s
    simp only
    have press : p.kept s (endTurnBoost (
        let v := queuePress f.origin .missed
          (if s.turn.state.autonomous then
            if s.turn.state = .stopped ∧ keepsReason s.turn.reason = true then { s with turn.flight := none }
            else { s with turn.flight := none, turn.state := .stopped, turn.reason := some .miss }
          else { s with turn.flight := none })
        if v.turn.state.autonomous then handOverOwed .stopped (post .turnStopped v) else v)) := by
      refine p.kept_trans ?_ (kept_endTurnBoost p (by simp_all) _)
      have u : p.kept s (queuePress f.origin .missed
          (if s.turn.state.autonomous then
            if s.turn.state = .stopped ∧ keepsReason s.turn.reason = true then { s with turn.flight := none }
            else { s with turn.flight := none, turn.state := .stopped, turn.reason := some .miss }
          else { s with turn.flight := none })) := by
        refine p.kept_trans (set _ _ _ (set _ _ _ t0 ?_) t0) (kept_queuePress f.origin _ p (by simp_all) _)
        exact kept_turn _ p (by simp_all) s
      exact set _ _ _ (p.kept_trans u (p.kept_trans (kept_post _ p (by simp_all) _)
        (kept_handOverOwed _ p (by simp_all) _))) u
    split
    · exact press
    · exact press
    · next request _ =>
      refine p.kept_trans ?_ (kept_reply request _ _ p (by simp_all) _)
      refine p.kept_trans ?_ (kept_endTurnBoost p (by simp_all) _)
      have u : p.kept s (if s.turn.state.autonomous = true ∧ s.turn.state ≠ .stopped then
          { s with turn.flight := none, turn.state := .stopped, turn.reason := some .miss }
          else { s with turn.flight := none }) := set _ _ _ (kept_turn _ p (by simp_all) s) t0
      exact set _ _ _ (p.kept_trans u (p.kept_trans (kept_post _ p (by simp_all) _)
        (kept_handOverOwed _ p (by simp_all) _))) u

theorem kept_takeOwed (p : Part) (hp : p ∉ turnParts) (s : State) : p.kept s (takeOwed s) := by
  unfold turnParts at hp
  have go : ∀ (page : Nat) (d : TurnDirection) (owed : Int) (e : TurnOrigin),
      p.kept s (startTurn page d e { s with turn.owed := owed, turn.state := .ready }) := fun page d owed e =>
    p.kept_trans (kept_turn { s.turn with owed := owed, state := .ready } p (by simp_all) s)
      (kept_startTurn page d e p (by simp_all) _)
  unfold takeOwed
  generalize decide (0 < s.turn.owed) = forward
  have rest : ∀ t : State, p.kept s t →
      p.kept s (if t.turn.flight.isSome = true then t else endTurnBoost (handOverOwed .stopped t)) := by
    intro t a
    split
    · exact a
    · exact p.kept_trans a (p.kept_trans (kept_handOverOwed _ p (by simp_all) _) (kept_endTurnBoost p (by simp_all) _))
  have none : p.kept s (endTurnBoost { s with turn.owed := 0, turn.state := .ready }) :=
    p.kept_trans (kept_turn { s.turn with owed := 0, state := .ready } p (by simp_all) s)
      (kept_endTurnBoost p (by simp_all) _)
  cases forward <;>
    (simp only [if_true, if_false, Bool.false_eq_true]
     split
     · exact none
     · exact rest _ (go _ _ _ _))

theorem kept_turnSucceeded (p : Part) (hp : p ∉ turnParts) (s : State) : p.kept s (turnSucceeded s) := by
  have hp' := hp
  unfold turnParts at hp
  have go : ∀ (w : State), p.kept s w → p.kept s (match w.turn.state with
      | .turning => if w.turn.owed = 0 then endTurnBoost { w with turn.state := .ready } else takeOwed w
      | _ => endTurnBoost w) := by
    intro w a
    split
    · split
      · exact p.kept_trans a (p.kept_trans (kept_turn { w.turn with state := .ready } p (by simp_all) w)
          (kept_endTurnBoost p (by simp_all) _))
      · exact p.kept_trans a (kept_takeOwed p hp' w)
    · exact p.kept_trans a (kept_endTurnBoost p (by simp_all) w)
  unfold turnSucceeded
  split
  · exact p.kept_refl s
  · next f _ =>
    refine go _ (p.kept_trans ?_ (p.kept_trans (kept_refillTest p (by simp_all) _)
      (kept_answerOrigin f .ok (item2 f.page) p (by simp_all) _)))
    split
    · exact kept_turn _ p (by simp_all) s
    · exact kept_turn _ p (by simp_all) s

theorem kept_turnEnded (r : Result) (p : Part) (hp : p ∉ turnParts) (s : State) : p.kept s (turnEnded r s) := by
  unfold turnEnded
  split
  · exact kept_turnSucceeded p hp s
  · exact kept_turnFailed r p hp s

theorem kept_titleStopped (h : Nat) (r : StopReason) (p : Part) (hp : p ∉ [Part.turning, .attention]) (s : State) :
    p.kept s (titleStopped h r s) := by
  unfold titleStopped
  split
  · split
    · exact p.kept_trans (kept_turn { s.turn with state := .stopped, reason := some r } p (by simp_all) s)
        (kept_post _ p (by simp_all) _)
    · exact p.kept_trans (kept_turn { s.turn with state := .stopped, reason := some r } p (by simp_all) s)
        (p.kept_trans (kept_post _ p (by simp_all) _) (kept_handOverOwed _ p hp _))
    · refine p.kept_trans ?_ (kept_post _ p (by simp_all) _)
      split
      · exact p.kept_refl s
      · exact kept_turn { s.turn with reason := some r } p (by simp_all) s
    · exact p.kept_refl s
    · exact p.kept_refl s
  · exact p.kept_refl s

/-! ### The update queue and the slots -/

/-- The parts that the removal of queued updates can change. -/
def removalParts : List Part := turnParts ++ [.updates, .budget]

theorem kept_endEntry (r : Result) (e : UpdateEntry) (p : Part) (hp : p ∉ turnParts) (s : State) :
    p.kept s (endEntry r e s) := by
  have hr : p ∉ [Part.outstanding] := by unfold turnParts at hp; simp_all
  unfold endEntry
  simp only
  split
  · exact p.kept_trans (kept_replies _ r [] p hr s) (kept_turnEnded r p hp _)
  · exact kept_replies _ r [] p hr s

theorem kept_queue (q : List UpdateEntry) (p : Part) (hp : p ∉ [Part.updates]) (s : State) :
    p.kept s { s with panel.queue := q } := by
  cases p <;> first | (exfalso; simp at hp; done) | simp [Part.kept, State.recordAt, State.unwritten]

theorem kept_endEntries (r : Result) (gone : List UpdateEntry) (p : Part) (hp : p ∉ turnParts) (s : State) :
    p.kept s (gone.foldl (fun v e => endEntry r e v) s) := by
  induction gone generalizing s with
  | nil => exact p.kept_refl s
  | cons e gone ih => exact p.kept_trans (kept_endEntry r e p hp s) (ih _)

theorem kept_removeEntries (which : UpdateEntry → Bool) (r : Result) (p : Part) (hp : p ∉ removalParts) (s : State) :
    p.kept s (removeEntries which r s) := by
  have ht : p ∉ turnParts := by unfold removalParts at hp; simp_all
  have hb : p ∉ [Part.budget] ∧ p ∉ [Part.updates] := by unfold removalParts at hp; simp_all
  unfold removeEntries
  simp only
  refine p.kept_trans ?_ (kept_endEntries r _ p ht _)
  split
  · exact p.kept_trans (kept_queue _ p hb.2 s) (kept_withdrawClaim _ p hb.1 _)
  · exact kept_queue _ p hb.2 s

theorem kept_withdrawn (p : Part) (hp : p ∉ [Part.updates, .budget]) (s : State) : p.kept s (withdrawAdmission s) :=
  p.kept_trans (kept_queue _ p (by simp_all) s) (kept_withdrawClaim .admission p (by simp_all) _)

theorem kept_withdrawOvertaken (p : Part) (hp : p ∉ [Part.updates, .budget]) (s : State) :
    p.kept s (withdrawOvertaken s) := by
  unfold withdrawOvertaken
  split
  · exact p.kept_refl s
  · simp only
    split
    · exact p.kept_refl s
    · exact kept_withdrawn p hp s

theorem kept_placeTurnUpdate (frame : Nat) (m : Mode) (p : Part) (hp : p ∉ removalParts ++ [Part.ghosts]) (s : State) :
    p.kept s (placeTurnUpdate frame m s) := by
  have h1 : p ∉ turnParts := by unfold removalParts at hp; simp_all
  have h2 : p ∉ [Part.updates, .budget] ∧ p ∉ [Part.updates] ∧ p ∉ [Part.ghosts] := by
    unfold removalParts at hp; simp_all
  have ghosts : ∀ (n : Nat) (t : State), p.kept t { t with panel.nextOrder := n } := by
    intro n t
    have := h2.2.2
    cases p <;> first | (exfalso; simp at this; done) | simp [Part.kept, State.recordAt, State.unwritten]
  have go : ∀ (t : State) (q : List UpdateEntry) (n : Nat), p.kept s t →
      p.kept s { t with panel.queue := q, panel.nextOrder := n } := fun t q n a =>
    p.kept_trans a (p.kept_trans (kept_queue q p h2.2.1 t) (ghosts n { t with panel.queue := q }))
  unfold placeTurnUpdate
  split
  · exact kept_turnFailed _ p h1 s
  · refine go _ _ _ ?_
    split
    · split
      · exact kept_withdrawn p h2.1 s
      · exact p.kept_refl s
    · exact p.kept_refl s

theorem kept_setSlot (i : Fin 28) (v : PageSlot) (p : Part) (hp : p ∉ [Part.slots]) (s : State) :
    p.kept s (setSlot i v s) := by
  cases p <;> first | (exfalso; simp at hp; done) | simp [Part.kept, setSlot, State.recordAt, State.unwritten]

/-- The parts that the completion of a retirement can change. -/
def retirementParts : List Part := [.titles, .dirtyFlags, .sectorWrites, .blocks, .covers, .attention]

theorem kept_completeRetirement (h : Nat) (p : Part) (hp : p ∉ retirementParts) (s : State) :
    p.kept s (completeRetirement h s) := by
  unfold retirementParts at hp
  unfold completeRetirement
  simp only
  refine p.kept_trans (kept_changeRecord h (fun _ => Persisted.blank) p (by simp_all) s)
    (p.kept_trans ?_ (kept_post _ p (by simp_all) _))
  cases p <;> first | (exfalso; simp at hp; done) | simp [Part.kept, releaseExtents, State.recordAt, State.unwritten]

theorem kept_testRetirement (h : Nat) (p : Part) (hp : p ∉ retirementParts) (s : State) :
    p.kept s (testRetirement h s) := by
  unfold testRetirement
  split
  · exact kept_completeRetirement h p hp s
  · exact p.kept_refl s

/-- The parts that the freeing of slots can change. -/
def freeingParts : List Part := removalParts ++ retirementParts ++ [.slots]

theorem kept_freeSlotNow (own : Bool) (i : Fin 28) (p : Part) (hp : p ∉ freeingParts) (s : State) :
    p.kept s (freeSlotNow own i s) := by
  have h1 : p ∉ removalParts ∧ p ∉ retirementParts ∧ p ∉ [Part.slots] := by
    unfold freeingParts at hp; simp_all
  have h2 : p ∉ [Part.turning] := by have := h1.1; unfold removalParts turnParts at this; simp_all
  unfold freeSlotNow
  simp only
  refine p.kept_trans ?_ (kept_testRetirement _ p h1.2.1 _)
  have a := p.kept_trans (kept_turn { s.turn with flight := s.turn.flight.map (TurnFlight.loses i) } p h2 s)
    (p.kept_trans (kept_setSlot i PageSlot.blank p h1.2.2 _)
      (kept_removeEntries (fun e => e.source == slotFrame i) .sourceGone p h1.1 _))
  split
  · exact p.kept_trans a (kept_turn _ p h2 _)
  · exact a

theorem kept_freeSlots (is : List (Fin 28)) (p : Part) (hp : p ∉ freeingParts) (s : State) :
    p.kept s (freeSlots is s) := by
  unfold freeSlots
  induction is generalizing s with
  | nil => exact p.kept_refl s
  | cons i is ih => exact p.kept_trans (kept_freeSlotNow false i p hp s) (ih _)

theorem kept_giveUpSlot (i : Fin 28) (p : Part) (hp : p ∉ freeingParts) (s : State) : p.kept s (giveUpSlot i s) := by
  have h1 : p ∉ [Part.slots] := by unfold freeingParts at hp; simp_all
  unfold giveUpSlot
  simp only
  split
  · split
    · exact kept_setSlot i _ p h1 s
    · exact kept_freeSlotNow true i p hp s
  · exact p.kept_refl s

end Sys2Proof.Machine
end

