-- ==== Sys2Proof/Laws/Memory.lean ====
section
/-! SUPPORT. The byte memories: every operation keeps the canonical form, and what a read finds after it. -/

namespace Sys2Proof.Machine

/-! ### The canonical form -/

theorem Memory.wf_nil : Memory.wf [] := ⟨List.Pairwise.nil, fun _ h => nomatch h⟩

theorem Memory.wf_filter {m : List Host.Cell} (w : Memory.wf m) (p : Host.Cell → Bool) : Memory.wf (m.filter p) :=
  ⟨w.1.sublist List.filter_sublist, fun c h => w.2 c (List.mem_filter.mp h).1⟩

theorem Memory.wf_append {m n : List Host.Cell} (u : Memory.wf m) (v : Memory.wf n)
    (h : ∀ x ∈ m, ∀ y ∈ n, x.1 < y.1) : Memory.wf (m ++ n) :=
  ⟨List.pairwise_append.mpr ⟨u.1, v.1, h⟩, fun c hc => (List.mem_append.mp hc).elim (u.2 c) (v.2 c)⟩

theorem Memory.wf_window {m : List Host.Cell} (w : Memory.wf m) (a n : Nat) : Memory.wf (Memory.window m a n) :=
  Memory.wf_filter w _

theorem Memory.mem_window {m : List Host.Cell} {a n : Nat} {c : Host.Cell} :
    c ∈ Memory.window m a n ↔ c ∈ m ∧ a ≤ c.1 ∧ c.1 < a + n := by
  simp [Memory.window]

theorem Memory.wf_splice {m cells : List Host.Cell} (u : Memory.wf m) (v : Memory.wf cells) (a n : Nat) :
    Memory.wf (Memory.splice m a n cells) := by
  unfold Memory.splice
  refine Memory.wf_append (Memory.wf_append (Memory.wf_filter u _) (Memory.wf_window v a n) ?_) (Memory.wf_filter u _) ?_
  · intro x hx y hy
    have := (Memory.mem_window.mp hy).2
    have := (List.mem_filter.mp hx).2
    simp at this
    omega
  · intro x hx y hy
    have hy := (List.mem_filter.mp hy).2
    simp at hy
    rcases List.mem_append.mp hx with hx | hx
    · have := (List.mem_filter.mp hx).2
      simp at this
      omega
    · have := (Memory.mem_window.mp hx).2
      omega

theorem Memory.mem_cellsOf {a : Nat} {bytes : List Byte} {c : Host.Cell} (h : c ∈ Memory.cellsOf a bytes) :
    a ≤ c.1 ∧ c.1 < a + bytes.length ∧ c.2 ≠ Memory.unlisted := by
  induction bytes generalizing a with
  | nil => cases h
  | cons b bs ih =>
    unfold Memory.cellsOf at h
    split at h
    · have := ih h
      simp only [List.length_cons]
      exact ⟨by omega, by omega, this.2.2⟩
    · rcases List.mem_cons.mp h with rfl | h
      · simp only [List.length_cons]
        exact ⟨by omega, by omega, by assumption⟩
      · have := ih h
        simp only [List.length_cons]
        exact ⟨by omega, by omega, this.2.2⟩

theorem Memory.wf_cellsOf (a : Nat) (bytes : List Byte) : Memory.wf (Memory.cellsOf a bytes) := by
  refine ⟨?_, fun c h => (Memory.mem_cellsOf h).2.2⟩
  induction bytes generalizing a with
  | nil => exact List.Pairwise.nil
  | cons b bs ih =>
    unfold Memory.cellsOf
    split
    · exact ih _
    · refine List.pairwise_cons.mpr ⟨fun c h => ?_, ih _⟩
      have := (Memory.mem_cellsOf h).1
      show a < c.1
      omega

theorem Memory.wf_shift {m : List Host.Cell} (w : Memory.wf m) (source target : Nat) (h : ∀ c ∈ m, source ≤ c.1) :
    Memory.wf (Memory.shift source target m) := by
  unfold Memory.shift
  refine ⟨List.pairwise_map.mpr (w.1.imp_of_mem fun {x y} hx hy l => ?_), fun c hc => ?_⟩
  · have := h x hx
    have := h y hy
    show x.1 - source + target < y.1 - source + target
    omega
  · obtain ⟨d, hd, rfl⟩ := List.mem_map.mp hc
    exact w.2 d hd

theorem Memory.wf_store {m : List Host.Cell} (w : Memory.wf m) (a : Nat) (bytes : List Byte) :
    Memory.wf (Memory.store m a bytes) :=
  Memory.wf_splice w (Memory.wf_cellsOf a bytes) a _

theorem Memory.wf_wipe {m : List Host.Cell} (w : Memory.wf m) (a n : Nat) : Memory.wf (Memory.wipe m a n) :=
  Memory.wf_splice w Memory.wf_nil a n

/-! ### Frames -/

theorem wf_whitenWords {cells : List Host.Cell} (w : Memory.wf cells) (words : List WordFlip) :
    Memory.wf (whitenWords words cells) := by
  unfold whitenWords
  induction words generalizing cells with
  | nil => exact w
  | cons f fs ih => exact ih (Memory.wf_wipe w _ _)

theorem wf_writeRows {base : Nat} {content cells : List Host.Cell} (v : Memory.wf content) (w : Memory.wf cells)
    (spans : List (Nat × Nat)) : Memory.wf (writeRows base content spans cells) := by
  unfold writeRows
  induction spans generalizing cells with
  | nil => exact w
  | cons p ps ih =>
    refine ih (Memory.wf_splice w (Memory.wf_shift (Memory.wf_window v _ _) 0 base fun c _ => Nat.zero_le _) _ _)

/-- A write of a rectangle keeps page memory in canonical form. -/
theorem wf_writeRect {content : List Host.Cell} (v : Memory.wf content) {s : State} (w : Memory.wf s.pm.cells)
    (frame : Nat) (r : Rect) : Memory.wf (writeRect frame r content s).pm.cells :=
  wf_writeRows v (wf_whitenWords w _) _

/-- Cells gathered row by row are in canonical form where each row's cells lie in its span and the spans ascend. -/
theorem wf_rows {α : Type} (row : α → List Host.Cell) (span : α → Nat × Nat) :
    ∀ l : List α, (∀ x ∈ l, Memory.wf (row x) ∧ ∀ c ∈ row x, (span x).1 ≤ c.1 ∧ c.1 < (span x).1 + (span x).2) →
      l.Pairwise (fun x y => (span x).1 + (span x).2 ≤ (span y).1) → Memory.wf (l.flatMap row)
  | [], _, _ => Memory.wf_nil
  | x :: l, h, p => by
    rw [List.flatMap_cons]
    have px := List.pairwise_cons.mp p
    refine Memory.wf_append (h x (List.mem_cons_self ..)).1
      (wf_rows row span l (fun y hy => h y (List.mem_cons_of_mem _ hy)) px.2) fun c hc d hd => ?_
    obtain ⟨y, hy, hd⟩ := List.mem_flatMap.mp hd
    have := (h x (List.mem_cons_self ..)).2 c hc
    have := (h y (List.mem_cons_of_mem _ hy)).2 d hd
    have := px.1 y hy
    omega

theorem rowSpans_ascend {r : Rect} (h : r.fitsRow) (base : Nat) :
    (rowSpans base r).Pairwise fun p q => p.1 + p.2 ≤ q.1 := by
  unfold rowSpans
  refine List.pairwise_map.mpr (List.pairwise_lt_range.imp fun {i j} l => ?_)
  unfold Rect.fitsRow at h
  show base + (r.y + i) * 840 + r.x / 2 + r.w / 2 ≤ base + (r.y + j) * 840 + r.x / 2
  omega

/-- What a load takes of a frame is in canonical form. -/
theorem wf_readRect {cells : List Host.Cell} (w : Memory.wf cells) {r : Rect} (h : r.fitsRow) (frame : Nat) :
    Memory.wf (readRect frame r cells) := by
  have base : ∀ p ∈ rowSpans (frameBase frame) r, frameBase frame ≤ p.1 := by
    intro p hp
    obtain ⟨i, _, rfl⟩ := List.mem_map.mp hp
    show _ ≤ frameBase frame + _ + _
    omega
  refine wf_rows _ (fun p => (p.1 - frameBase frame, p.2)) _ (fun p hp => ?_) ?_
  · have b := base p hp
    refine ⟨Memory.wf_shift (Memory.wf_window w _ _) _ _ fun c hc => ?_, fun c hc => ?_⟩
    · have := (Memory.mem_window.mp hc).2
      omega
    · obtain ⟨d, hd, rfl⟩ := List.mem_map.mp hc
      have := (Memory.mem_window.mp hd).2
      show p.1 - _ ≤ d.1 - _ + 0 ∧ d.1 - _ + 0 < p.1 - _ + p.2
      omega
  · refine (rowSpans_ascend h _).imp_of_mem fun {p q} hp hq l => ?_
    have := base p hp
    have := base q hq
    show p.1 - _ + p.2 ≤ q.1 - _
    omega

/-- The cells of a WRITE PIXELS payload are in canonical form. -/
theorem wf_pixelCells {r : Rect} (h : r.fitsRow) (pixels : List Byte) : Memory.wf (pixelCells r pixels) := by
  unfold pixelCells
  refine wf_rows _ (fun p => p.1) _ (fun p hp => ⟨Memory.wf_cellsOf _ _, fun c hc => ?_⟩) ?_
  · have := Memory.mem_cellsOf hc
    have : ((pixels.drop (p.2 * (r.w / 2))).take p.1.2).length ≤ p.1.2 := List.length_take_le _ _
    omega
  · have := rowSpans_ascend h 0
    rw [← List.zipIdx_map_fst 0 (rowSpans 0 r)] at this
    exact List.pairwise_map.mp this

/-! ### Reads -/

theorem lookup_filter (q : Nat → Bool) (a : Nat) (m : List Host.Cell) :
    (m.filter fun c => q c.1).lookup a = if q a then m.lookup a else none := by
  induction m with
  | nil => simp
  | cons c m ih =>
    obtain ⟨x, b⟩ := c
    by_cases e : a = x
    · subst e
      by_cases k : q a = true
      · simp [k]
      · simp [k, ih]
    · have e' : (a == x) = false := by simpa using e
      by_cases k : q x = true
      · simp [k, List.lookup_cons, e', ih]
      · simp [k, List.lookup_cons, e', ih]

theorem Memory.read_window (m : List Host.Cell) (a n x : Nat) :
    Memory.read (Memory.window m a n) x = if a ≤ x ∧ x < a + n then Memory.read m x else Memory.unlisted := by
  unfold Memory.read Memory.window
  rw [lookup_filter (fun k => decide (a ≤ k) && decide (k < a + n))]
  by_cases h : a ≤ x ∧ x < a + n <;> simp [h]

/-- After a splice, the range reads as the new cells and every other byte as before. -/
theorem Memory.read_splice (m cells : List Host.Cell) (a n x : Nat) :
    Memory.read (Memory.splice m a n cells) x =
      if a ≤ x ∧ x < a + n then Memory.read cells x else Memory.read m x := by
  have w : (Memory.window cells a n).lookup x = if a ≤ x ∧ x < a + n then cells.lookup x else none := by
    unfold Memory.window
    rw [lookup_filter (fun k => decide (a ≤ k) && decide (k < a + n))]
    simp
  unfold Memory.read Memory.splice
  rw [List.lookup_append, List.lookup_append, lookup_filter (fun k => decide (k < a)),
    lookup_filter (fun k => decide (a + n ≤ k)), w]
  by_cases l : x < a
  · have : ¬(a ≤ x ∧ x < a + n) := by omega
    have : ¬(a + n ≤ x) := by omega
    simp [*]
  · by_cases u : a + n ≤ x
    · have : ¬(a ≤ x ∧ x < a + n) := by omega
      simp [*]
    · have : a ≤ x ∧ x < a + n := by omega
      simp [*]

theorem Memory.read_cellsOf (a x : Nat) (bytes : List Byte) :
    Memory.read (Memory.cellsOf a bytes) x =
      if a ≤ x ∧ x < a + bytes.length then bytes.getD (x - a) 0 else Memory.unlisted := by
  induction bytes generalizing a with
  | nil =>
    have h : ¬(a ≤ x ∧ x < a + ([] : List Byte).length) := by simp only [List.length_nil]; omega
    rw [if_neg h]
    rfl
  | cons b bs ih =>
    by_cases e : x = a
    · subst e
      unfold Memory.cellsOf
      split
      · next hb =>
        rw [ih]
        rw [if_neg (by omega)]
        simp [hb]
      · simp [Memory.read]
    · have rest : Memory.read (Memory.cellsOf a (b :: bs)) x = Memory.read (Memory.cellsOf (a + 1) bs) x := by
        have e' : (x == a) = false := by simpa using e
        simp only [Memory.cellsOf]
        split
        · rfl
        · simp [Memory.read, List.lookup_cons, e']
      rw [rest, ih]
      by_cases h : a + 1 ≤ x ∧ x < a + 1 + bs.length
      · have h' : a ≤ x ∧ x < a + (b :: bs).length := by simp only [List.length_cons]; omega
        have : x - a = (x - (a + 1)) + 1 := by omega
        simp only [h, h', and_self, if_true]
        rw [this, List.getD_cons_succ]
      · have h' : ¬(a ≤ x ∧ x < a + (b :: bs).length) := by simp only [List.length_cons]; omega
        simp only [h, h', if_false]

/-- After a store, its bytes stand from the address on and every other byte reads as before. -/
theorem Memory.read_store (m : List Host.Cell) (a x : Nat) (bytes : List Byte) :
    Memory.read (Memory.store m a bytes) x =
      if a ≤ x ∧ x < a + bytes.length then bytes.getD (x - a) 0 else Memory.read m x := by
  unfold Memory.store
  rw [Memory.read_splice, Memory.read_cellsOf]
  split <;> simp [*]

/-- After a wipe, the range reads as unlisted and every other byte as before. -/
theorem Memory.read_wipe (m : List Host.Cell) (a n x : Nat) :
    Memory.read (Memory.wipe m a n) x = if a ≤ x ∧ x < a + n then Memory.unlisted else Memory.read m x := by
  unfold Memory.wipe
  rw [Memory.read_splice]
  rfl

theorem Memory.read_shift (m : List Host.Cell) (base x : Nat) :
    Memory.read (Memory.shift 0 base m) x = if base ≤ x then Memory.read m (x - base) else Memory.unlisted := by
  unfold Memory.read Memory.shift
  have : (m.map fun c => (c.1 - 0 + base, c.2)).lookup x = if base ≤ x then m.lookup (x - base) else none := by
    induction m with
    | nil => simp
    | cons c m ih =>
      obtain ⟨k, b⟩ := c
      simp only [List.map_cons, List.lookup_cons]
      by_cases e : x = k - 0 + base
      · have h : base ≤ x := by omega
        have : x - base = k := by omega
        simp [e]
      · have : (x == k - 0 + base) = false := by simpa using e
        rw [this, ih]
        by_cases h : base ≤ x
        · have : (x - base == k) = false := by simp; omega
          simp [h, this]
        · simp [h]
  rw [this]
  by_cases h : base ≤ x <;> simp [h]

/-- A cold start leaves every byte memory in canonical form. -/
theorem wf_reset : Memory.wf State.reset.pm.cells ∧ Memory.wf State.reset.flash.title := ⟨Memory.wf_nil, Memory.wf_nil⟩

end Sys2Proof.Machine
end

