-- ==== Sys2Proof/Laws/Titles.lean ====
section
/-! SUPPORT. What the operations of the Title Catalogue can do: to a record, to its neighbours, and to the rest. -/

namespace Sys2Proof.Machine

/-! ### Records -/

/-- Reading a record looks at the records only, so an operation that keeps them keeps every reading. -/
theorem recordAt_of_kept {s t : State} (a : Part.titles.kept s t) (b : Part.dirtyFlags.kept s t) (h : Nat) :
    t.recordAt h = s.recordAt h := by
  have x := a h
  have y := b h
  generalize t.recordAt h = p at *
  generalize s.recordAt h = q at *
  cases p; cases q; simp_all

theorem recordAt_reportSector (n g : Nat) (s : State) : (reportSector n s).recordAt g = s.recordAt g := by
  unfold reportSector; split <;> rfl

theorem validHandle_iff (h : Nat) : validHandle h = true ↔ 1 ≤ h ∧ h ≤ 1024 := by simp [validHandle]

theorem recordAt_changeRecord (h g : Nat) (f : Persisted → Persisted) (s : State) :
    (changeRecord h f s).recordAt g =
      if g = h ∧ validHandle h = true then
        { s.recordAt h with
          toPersisted := { f (s.recordAt h).toPersisted with revision := (s.recordAt h).revision + 1 }, dirty := true }
      else s.recordAt g := by
  unfold changeRecord
  split
  · next v =>
    rw [recordAt_reportSector, recordAt_setRecord]
    rw [validHandle_iff] at v
    simp [v, validHandle_iff]
  · next v => simp [v]

theorem unwritten_reportSector (n : Nat) (s : State) : (reportSector n s).unwritten n := by
  unfold reportSector
  split
  · next e =>
    obtain ⟨x, hx, e⟩ := List.any_eq_true.mp e
    exact Or.inl ⟨x, hx, by simpa using e⟩
  · exact Or.inl ⟨_, List.mem_append_right _ (List.mem_singleton.mpr rfl), rfl⟩

theorem unwritten_changeRecord (h : Nat) (f : Persisted → Persisted) (v : validHandle h = true) (s : State) :
    (changeRecord h f s).unwritten (sectorOf h) := by
  unfold changeRecord; rw [if_pos v]; exact unwritten_reportSector _ _

theorem link_changeRecord (h : Nat) (f : Persisted → Persisted) (s : State) : (changeRecord h f s).link = s.link := by
  unfold changeRecord
  split
  · obtain ⟨_, e⟩ := setRecord_eq h
      { s.recordAt h with
        toPersisted := { f (s.recordAt h).toPersisted with revision := (s.recordAt h).revision + 1 }, dirty := true } s
    simp only [e, reportSector]
    split <;> rfl
  · rfl

theorem link_setHolds (h n : Nat) (s : State) : (setHolds h n s).link = s.link := by
  obtain ⟨_, e⟩ := setRecord_eq h { s.recordAt h with holds := n } s
  rw [setHolds, e]

theorem recordAt_setHolds (h g n : Nat) (s : State) :
    (setHolds h n s).recordAt g = if g = h ∧ validHandle h = true then { s.recordAt h with holds := n } else s.recordAt g := by
  rw [setHolds, recordAt_setRecord]; simp [validHandle_iff]

/-- The edit of a record, by R3: the revision rises where a persisted field changes. -/
theorem recordBecomes_editRecord (h : Nat) (f : Persisted → Persisted) (v : validHandle h = true) (s : State) :
    recordBecomes h (f (s.recordAt h).toPersisted) s (editRecord h f s) := by
  unfold editRecord
  split
  · next e => exact ⟨by simp [revised, e], rfl, fun _ _ => ⟨rfl, rfl⟩, fun c => absurd e c⟩
  · next e =>
    refine ⟨?_, ?_, fun g hg => ?_, fun _ => unwritten_changeRecord h f v s⟩
    · rw [recordAt_changeRecord]; simp [v, revised, e]
    · rw [recordAt_changeRecord]; simp [v]
    · rw [recordAt_changeRecord]; simp [hg]

theorem link_editRecord (h : Nat) (f : Persisted → Persisted) (s : State) : (editRecord h f s).link = s.link := by
  unfold editRecord
  split
  · rfl
  · exact link_changeRecord h f s

/-! ### Neighbours -/

theorem kept_leaveExpiry (h : Nat) (p : Part) (hp : p ∉ [Part.expiries]) (s : State) : p.kept s (leaveExpiry h s) := by
  cases p <;> first | (exfalso; simp at hp; done) | simp [Part.kept, leaveExpiry, State.recordAt, State.unwritten]

theorem kept_placeExpiry (h : Nat) (p : Part) (hp : p ∉ [Part.expiries]) (s : State) : p.kept s (placeExpiry h s) := by
  unfold placeExpiry
  simp only
  split
  · refine p.kept_trans (kept_leaveExpiry h p hp s) ?_
    cases p <;> first | (exfalso; simp at hp; done) | simp [Part.kept, State.recordAt, State.unwritten]
  · exact kept_leaveExpiry h p hp s

theorem kept_withdrawReads (h : Nat) (r : Result) (p : Part) (hp : p ∉ [Part.reads, .flashPort, .outstanding])
    (s : State) : p.kept s (withdrawReads h r s) := by
  unfold withdrawReads
  refine p.kept_trans ?_ (p.kept_trans (kept_withdrawOps _ p (by simp_all) _) (kept_replies _ r [] p (by simp_all) _))
  cases p <;> first | (exfalso; simp at hp; done) | simp [Part.kept, State.recordAt, State.unwritten]

theorem kept_setTransfer (i : Fin 4) (t : TransferSlot) (p : Part) (hp : p ∉ [Part.transfers, .transferStages])
    (s : State) : p.kept s (setTransfer i t s) := by
  cases p <;> first | (exfalso; simp at hp; done) | simp [Part.kept, setTransfer, State.recordAt, State.unwritten]

theorem kept_endTransfer (i : Fin 4) (p : Part) (hp : p ∉ [Part.transfers, .transferStages, .flashPort]) (s : State) :
    p.kept s (endTransfer i s) := by
  have go : ∀ (b : Vector (Option Segment) 4) (u : State), p.kept s u →
      p.kept s (setTransfer i TransferSlot.blank { u with dl.buffers := b }) := by
    intro b u a
    refine p.kept_trans a ?_
    cases p <;> first | (exfalso; simp at hp; done) | simp [Part.kept, setTransfer, State.recordAt, State.unwritten]
  unfold endTransfer
  exact go _ _ (kept_withdrawOps _ p (by simp_all) s)

theorem kept_fetchEnded (h : Nat) (st : TitleState) (r : FetchResult) (p : Part)
    (hp : p ∉ [Part.titles, .dirtyFlags, .sectorWrites]) (s : State) : p.kept s (fetchEnded h st r s) := by
  unfold fetchEnded; split
  · exact kept_changeRecord h _ p hp s
  · exact p.kept_refl s

/-- The parts that a record's leaving READY can change in its neighbours. -/
def neighbourParts : List Part := freeingParts ++ [.reads, .flashPort, .transfers, .transferStages]

theorem kept_neighbourEffects (h : Nat) (fetching : Bool) (r : StopReason) (p : Part) (hp : p ∉ neighbourParts)
    (s : State) : p.kept s (neighbourEffects h fetching r s) := by
  have h1 : p ∉ freeingParts := by unfold neighbourParts at hp; simp_all
  have h2 : p ∉ [Part.turning, .attention] ∧ p ∉ [Part.outstanding] := by
    unfold freeingParts removalParts turnParts at h1; simp_all
  have h3 : p ∉ [Part.reads, .flashPort, .outstanding] ∧ p ∉ [Part.transfers, .transferStages, .flashPort] := by
    unfold neighbourParts at hp; simp_all
  unfold neighbourEffects
  have a := p.kept_trans (kept_freeSlots (s.invalidated h fun _ => true) p h1 s) (kept_titleStopped h r p h2.1 _)
  refine p.kept_trans ?_ (kept_withdrawReads h _ p h3.1 _)
  split
  · split
    · exact p.kept_trans a (kept_endTransfer _ p h3.2 _)
    · exact a
  · exact a

/-- The parts that a retirement or an expiry can change. -/
def leavingParts : List Part := neighbourParts ++ [.expiries]

theorem kept_retire (h : Nat) (p : Part) (hp : p ∉ leavingParts) (s : State) : p.kept s (retire h s) := by
  have h1 : p ∉ neighbourParts ∧ p ∉ [Part.expiries] := by unfold leavingParts at hp; simp_all
  have h2 : p ∉ retirementParts := by have := h1.1; unfold neighbourParts freeingParts at this; simp_all
  have h3 : p ∉ [Part.titles, .dirtyFlags, .sectorWrites] := by unfold retirementParts at h2; simp_all
  exact p.kept_trans (kept_changeRecord h _ p h3 s) (p.kept_trans (kept_leaveExpiry h p h1.2 _)
    (p.kept_trans (kept_neighbourEffects h _ _ p h1.1 _) (kept_testRetirement h p h2 _)))

theorem kept_expire (h : Nat) (p : Part) (hp : p ∉ leavingParts) (s : State) : p.kept s (expire h s) := by
  have h1 : p ∉ neighbourParts ∧ p ∉ [Part.expiries] := by unfold leavingParts at hp; simp_all
  have h2 : p ∉ retirementParts := by have := h1.1; unfold neighbourParts freeingParts at this; simp_all
  have h3 : p ∉ [Part.titles, .dirtyFlags, .sectorWrites] := by unfold retirementParts at h2; simp_all
  exact p.kept_trans (kept_changeRecord h _ p h3 s) (p.kept_trans (kept_leaveExpiry h p h1.2 _)
    (kept_neighbourEffects h _ _ p h1.1 _))

theorem kept_retireIfExpired (h : Nat) (p : Part) (hp : p ∉ leavingParts) (s : State) :
    p.kept s (retireIfExpired h s) := by
  unfold retireIfExpired; split
  · exact kept_retire h p hp s
  · exact p.kept_refl s

theorem kept_retireExpired (hs : List Nat) (p : Part) (hp : p ∉ leavingParts) (s : State) :
    p.kept s (retireExpired hs s) := by
  unfold retireExpired
  induction hs generalizing s with
  | nil => exact p.kept_refl s
  | cons h hs ih => exact p.kept_trans (kept_retireIfExpired h p hp s) (ih _)

theorem kept_expireDue (fuel : Nat) (done : List Nat) (p : Part) (hp : p ∉ leavingParts) (s : State) :
    p.kept s (expireDue fuel done s).2 := by
  induction fuel generalizing done s with
  | zero => exact p.kept_refl s
  | succ n ih =>
    unfold expireDue
    split
    · exact p.kept_refl s
    · split
      · exact p.kept_trans (kept_expire _ p hp s) (ih _ _)
      · exact p.kept_refl s

theorem kept_processExpiries (p : Part) (hp : p ∉ leavingParts) (s : State) : p.kept s (processExpiries s) := by
  have h : p ∉ [Part.attention] := by
    unfold leavingParts neighbourParts freeingParts removalParts turnParts at hp; simp_all
  unfold processExpiries
  split
  · simp only
    split
    · exact p.kept_refl s
    · exact p.kept_trans (kept_expireDue _ _ p hp s) (p.kept_trans (kept_post _ p h _) (kept_retireExpired _ p hp _))
  · exact p.kept_refl s

/-- While no listed loan is due, nothing expires. -/
theorem processExpiries_none {s : State} (n : ∀ h ∈ s.cat.expiryList, s.keep.valid = true →
    s.keep.seconds < (s.recordAt h).expiry.getD 0) : processExpiries s = s := by
  unfold processExpiries
  split
  · next v =>
    cases e : s.cat.expiryList with
    | nil => simp [expireDue]
    | cons h hs =>
      have := n h (by simp [e]) v
      simp [expireDue, e, Nat.not_le.mpr this]
  · rfl

theorem kept_holdsGone (h : Nat) (p : Part) (hp : p ∉ leavingParts) (s : State) : p.kept s (holdsGone h s) := by
  have h1 : p ∉ retirementParts := by unfold leavingParts neighbourParts freeingParts at hp; simp_all
  unfold holdsGone; split
  · exact p.kept_trans (kept_testRetirement h p h1 s) (kept_retireIfExpired h p hp _)
  · exact p.kept_refl s

/-! ### Slots -/

theorem slots_freeSlotNow (own : Bool) (i : Fin 28) (s : State) :
    (freeSlotNow own i s).pm.slots = s.pm.slots.set i PageSlot.blank := by
  unfold freeSlotNow
  simp only
  have a := kept_removeEntries (fun e => e.source == slotFrame i) .sourceGone .slots (by decide)
    (setSlot i PageSlot.blank { s with turn.flight := s.turn.flight.map (TurnFlight.loses i) })
  have b : ∀ h u, Part.slots.kept u (testRetirement h u) := fun h u => kept_testRetirement h .slots (by decide) u
  split
  · exact (b _ _).trans a
  · exact (b _ _).trans a

theorem slots_freeSlots (is : List (Fin 28)) (s : State) (i : Fin 28) :
    (freeSlots is s).pm.slots[i] = if i ∈ is then PageSlot.blank else s.pm.slots[i] := by
  unfold freeSlots
  induction is generalizing s with
  | nil => simp
  | cons j is ih =>
    rw [List.foldl_cons, ih]
    by_cases m : i ∈ is
    · simp [m]
    · simp only [m, if_false, List.mem_cons, or_false, slots_freeSlotNow, Fin.getElem_fin]
      by_cases e : i = j
      · subst e; simp
      · have : (j : Nat) ≠ (i : Nat) := fun c => e (Fin.ext c.symm)
        simp [e, Vector.getElem_set_ne _ _ this]

/-- The freeing of a slot whose title is not RETIRING changes no record. -/
theorem kept_freeSlotNow_live (own : Bool) (i : Fin 28) (p : Part) (hp : p ∉ removalParts ++ [.slots]) (s : State)
    (n : (s.recordAt s.pm.slots[i].handle).state ≠ .retiring) : p.kept s (freeSlotNow own i s) := by
  have h1 : p ∉ removalParts ∧ p ∉ [Part.slots] := by simp_all
  have h2 : p ∉ [Part.turning] := by have := h1.1; unfold removalParts turnParts at this; simp_all
  unfold freeSlotNow
  simp only
  have go : ∀ q : Part, q ∉ removalParts → q ∉ [Part.slots] → q ∉ [Part.turning] →
      q.kept s (removeEntries (fun e => e.source == slotFrame i) .sourceGone
        (setSlot i PageSlot.blank { s with turn.flight := s.turn.flight.map (TurnFlight.loses i) })) :=
    fun q a b c => q.kept_trans (kept_turn { s.turn with flight := s.turn.flight.map (TurnFlight.loses i) } q c s)
      (q.kept_trans (kept_setSlot i PageSlot.blank q b _)
        (kept_removeEntries (fun e => e.source == slotFrame i) .sourceGone q a _))
  have a := go p h1.1 h1.2 h2
  have b : ∀ u : State, Part.titles.kept s u → testRetirement s.pm.slots[i].handle u = u := by
    intro u k
    have e : (u.recordAt s.pm.slots[i].handle).state = (s.recordAt s.pm.slots[i].handle).state := by
      rw [(k _).1]
    unfold testRetirement
    rw [if_neg (by rw [e]; exact fun c => n c.1)]
  have k := go .titles (by decide) (by decide) (by decide)
  split
  · rw [b _ (Part.titles.kept_trans k (kept_turn _ .titles (by decide) _))]
    exact p.kept_trans a (kept_turn _ p h2 _)
  · rw [b _ k]; exact a

theorem recordAt_zero (s : State) : s.recordAt 0 = TitleRecord.blank := by simp [State.recordAt]

theorem kept_freeSlots_live (is : List (Fin 28)) (p : Part) (hp : p ∉ removalParts ++ [.slots]) (s : State)
    (n : ∀ i ∈ is, (s.recordAt s.pm.slots[i].handle).state ≠ .retiring) : p.kept s (freeSlots is s) := by
  unfold freeSlots
  induction is generalizing s with
  | nil => exact p.kept_refl s
  | cons i is ih =>
    have ni := n i (List.mem_cons_self ..)
    have k := kept_freeSlotNow_live false i .titles (by decide) s ni
    refine p.kept_trans (kept_freeSlotNow_live false i p hp s ni) (ih _ fun j m => ?_)
    rw [slots_freeSlotNow, Fin.getElem_fin]
    by_cases e : i = j
    · subst e
      simp only [Vector.getElem_set_self, show PageSlot.blank.handle = 0 from rfl, recordAt_zero]
      decide
    · have : (i : Nat) ≠ (j : Nat) := fun c => e (Fin.ext c)
      rw [Vector.getElem_set_ne _ _ this]
      have x : ((freeSlotNow false i s).recordAt s.pm.slots[(j : Nat)].handle).state
          = (s.recordAt s.pm.slots[(j : Nat)].handle).state := by rw [(k _).1]
      rw [x]
      exact n j (List.mem_cons_of_mem _ m)

end Sys2Proof.Machine
end

