-- ==== Sys2Proof/Laws/Numbers.lean ====
section
/-! SUPPORT. Which requests an operation can answer or hold: only those that the blocks held before. -/

namespace Sys2Proof.Machine

/-- Where every number that a block holds is in `N`, the operation holds and answers numbers of `N` alone, and gives no
number. -/
def Inside (N : Nat → Prop) (s t : State) : Prop :=
  HoldsOnly N s → HoldsOnly N t ∧ (∀ id, ¬N id → t.awaiting id = s.awaiting id)
      ∧ t.link.nextId = s.link.nextId
      ∧ t.link.outstanding.map (fun o => (o.id, o.tag, o.code)) = s.link.outstanding.map (fun o => (o.id, o.tag, o.code))

theorem Inside.refl (N : Nat → Prop) (s : State) : Inside N s s := fun h => ⟨h, fun _ _ => rfl, rfl, rfl⟩

theorem Inside.trans {N : Nat → Prop} {s t u : State} (a : Inside N s t) (b : Inside N t u) : Inside N s u := fun h =>
  have x := a h
  have y := b x.1
  ⟨y.1, fun id n => (y.2.1 id n).trans (x.2.1 id n), y.2.2.1.trans x.2.2.1, y.2.2.2.trans x.2.2.2⟩

theorem Inside.after {N : Nat → Prop} {s t u : State} (b : Inside N t u) (a : Inside N s t) : Inside N s u := a.trans b

/-- An operation that leaves the outstanding requests as they are. -/
theorem Inside.quiet {N : Nat → Prop} {s t : State} (a : HoldsOnly N s → HoldsOnly N t)
    (b : t.link.outstanding = s.link.outstanding) (c : t.link.nextId = s.link.nextId) : Inside N s t := fun h =>
  ⟨a h, fun _ _ => by simp [State.awaiting, b], c, by rw [b]⟩

/-- An operation that touches neither the holders nor the outstanding requests. -/
theorem Inside.same {N : Nat → Prop} {s t : State} (a : HoldsOnly N s → HoldsOnly N t)
    (b : t.link = s.link) : Inside N s t := Inside.quiet a (by rw [b]) (by rw [b])

/-- A request that a flash operation answers by itself is one that it works for. -/
theorem FlashJob.ownRequests_sub {job : FlashJob} {n : Nat} (h : n ∈ job.ownRequests) : n ∈ job.requests := by
  cases job <;> simp_all [FlashJob.ownRequests, FlashJob.requests]

/-- Where every number that a block holds is in `N`, so is every number of the list of the holders. -/
theorem HoldsOnly.heldNumbers {N : Nat → Prop} {s : State} (h : HoldsOnly N s) : ∀ n ∈ s.heldNumbers, N n := by
  have ops : ∀ op ∈ s.portOps, ∀ n ∈ op.job.requests, N n := by
    intro op mem n held
    rcases List.mem_append.1 mem with mem | mem
    · have phase := h.phase
      cases at' : s.port.phase with
      | idle => simp [at'] at mem
      | claiming p | busy p =>
        simp only [at', List.mem_singleton] at mem
        subst mem
        exact phase n (by simpa [at', PortPhase.requests] using held)
    · exact h.waiting op mem n held
  intro n mem
  simp only [State.heldNumbers, List.mem_append, List.mem_map, List.mem_flatMap, Option.mem_toList] at mem
  rcases mem with (((((((((((⟨r, at', rfl⟩ | ⟨w, at', rfl⟩) | ⟨e, at', k⟩) | ⟨l, at', k⟩) | ⟨f, at', k⟩) | ⟨c, at', rfl⟩)
    | ⟨f, at', k⟩) | ⟨op, at', k⟩) | ⟨c, at', k⟩) | ⟨c, at', k⟩) | ⟨r, at', rfl⟩) | ⟨w, at', k⟩)
  · exact h.reads r at'
  · exact h.held w at'
  · exact h.queue e at' n k
  · obtain ⟨i, small, rfl⟩ := List.mem_iff_getElem.1 at'
    exact h.lanes ⟨i, by simpa using small⟩ n (by simpa using k)
  · exact h.flight f at' n k
  · exact h.change c at'
  · exact h.flushes f at' n k
  · exact ops op at' n (FlashJob.ownRequests_sub k)
  · exact h.dormant c at' n k
  · exact h.shelf c at' n k
  · exact h.heldShelf r at'
  · exact h.heldWake w at' n k

/-- The parts that hold requests. -/
def holderParts : List Part :=
  [.reads, .heldWrites, .updates, .lanes, .turning, .sectorWrites, .flashPort, .entry, .shelfEntry, .heldWakes,
    .outstanding, .port]

/-- An operation that keeps every part that holds requests. -/
theorem Inside.of_kept {N : Nat → Prop} {s t : State} (k : ∀ p ∈ holderParts, p.kept s t) : Inside N s t := by
  have a := k .reads (by simp [holderParts])
  have b := k .heldWrites (by simp [holderParts])
  have c := k .updates (by simp [holderParts])
  have d := k .lanes (by simp [holderParts])
  have e := k .turning (by simp [holderParts])
  have f := k .sectorWrites (by simp [holderParts])
  have g := k .flashPort (by simp [holderParts])
  have h := k .entry (by simp [holderParts])
  have i := k .shelfEntry (by simp [holderParts])
  have j := k .heldWakes (by simp [holderParts])
  have l := k .outstanding (by simp [holderParts])
  have m := k .port (by simp [holderParts])
  simp only [Part.kept] at *
  have a' : t.cat.reads.map (·.request) = s.cat.reads.map (·.request) := by
    have := congrArg (List.map Prod.fst) a
    simpa [List.map_map, Function.comp_def] using this
  refine Inside.quiet (fun o => ⟨?_, b ▸ o.held, c ▸ o.queue, d ▸ o.lanes, e ▸ o.flight, e ▸ o.change,
    f.2.2.1 ▸ o.flushes, g.1 ▸ o.waiting, g.1 ▸ o.phase, h.2.2.2.1 ▸ o.dormant, i.1 ▸ o.shelf, j.2.1 ▸ o.heldShelf,
    j.1 ▸ o.heldWake⟩) l m.2.2.2
  intro r hr
  have : r.request ∈ s.cat.reads.map (·.request) := a' ▸ List.mem_map_of_mem hr
  obtain ⟨q, hq, e⟩ := List.mem_map.mp this
  exact e ▸ o.reads q hq

/-! ### Replies -/

theorem inside_answer {N : Nat → Prop} {id : Nat} (i : N id) (r : Result) (b : List Byte) (s : State) :
    Inside N s (answer id r b s) := by
  unfold answer
  split
  · exact Inside.refl N s
  · intro h
    refine ⟨{ h with }, fun x nx => ?_, rfl, ?_⟩
    · have ne : x ≠ id := fun e => nx (e ▸ i)
      simp only [State.awaiting]
      induction s.link.outstanding with
      | nil => rfl
      | cons o os ih =>
        simp only [List.map_cons, List.find?_cons]
        by_cases e : o.id = id
        · have : (id == x) = false := by simpa using fun h => ne h.symm
          simp [e, this, ih]
        · simp only [e, if_false]
          rw [ih]
    · simp only [List.map_map]
      refine List.map_congr_left fun o _ => ?_
      simp only [Function.comp]
      split <;> rfl

theorem inside_answerAll {N : Nat → Prop} {ids : List Nat} (i : ∀ n ∈ ids, N n) (r : Result) (b : List Byte) (s : State) :
    Inside N s (answerAll ids r b s) := by
  unfold answerAll
  induction ids generalizing s with
  | nil => exact Inside.refl N s
  | cons id ids ih =>
    exact (inside_answer (i id (List.mem_cons_self ..)) r b s).trans
      (ih (fun n m => i n (List.mem_cons_of_mem _ m)) _)

/-- The request of a number outside `N` still waits for its reply, so its answer joins the queue. -/
theorem answer_after {N : Nat → Prop} {s t : State} {o : Outstanding} (i : Inside N s t)
    (h : HoldsOnly N s) (id : ¬N o.id) (a : s.awaiting o.id = some o) (r : Result) (b : List Byte) :
    (answer o.id r b t).link.replies = t.link.replies ++ [⟨o.tag, some o.code, r, b⟩] := by
  have := ((i h).2.1 o.id id).trans a
  unfold State.awaiting at this
  simp [answer, this]

/-- The owner's answer to a request joins the queue, whatever else the owner has done with what it held before. -/
theorem answer_own {code : RequestCode} {f : Frame} {s u : State} (g : numbersGiven s)
    (i : Inside (· < s.link.nextId) (accept code f (endFetch s)) u) (r : Result) (b : List Byte) :
    (answer s.link.nextId r b u).link.replies = u.link.replies ++ [⟨f.tag, some code, r, b⟩] := by
  have old : s.link.outstanding.find? (fun o => o.id == s.link.nextId && !o.replied) = none := by
    rw [List.find?_eq_none]
    intro o ho
    have := g.1 o ho
    have : ¬(o.id = s.link.nextId) := by omega
    simp [this]
  refine answer_after (o := ⟨s.link.nextId, f.tag, code, false⟩) i { g.2 with } (by simp) ?_ r b
  simp [State.awaiting, accept, endFetch, List.find?_append, old]

/-! ### Turning -/

theorem inside_turn {N : Nat → Prop} (t : TurnEngine) (s : State) (a : t.flight = s.turn.flight)
    (b : t.change = s.turn.change) : Inside N s { s with turn := t } :=
  Inside.same (fun h => { h with flight := a ▸ h.flight, change := b ▸ h.change }) rfl

theorem inside_post {N : Nat → Prop} (r : Reason) (s : State) : Inside N s (post r s) :=
  Inside.quiet (fun h => { h with }) rfl rfl

theorem inside_queueKey {N : Nat → Prop} (e : KeyEvent) (r : KeyReason) (s : State) : Inside N s (queueKey e r s) := by
  unfold queueKey; split <;> exact Inside.quiet (fun h => { h with }) rfl rfl

theorem inside_queueOwed {N : Nat → Prop} (k : Key) (r : KeyReason) (n : Nat) (s : State) :
    Inside N s (queueOwed k r n s) := by
  induction n generalizing s with
  | zero => exact Inside.refl N s
  | succ n ih => exact (inside_queueKey _ r s).trans (ih _)

theorem inside_handOverOwed {N : Nat → Prop} (r : KeyReason) (s : State) : Inside N s (handOverOwed r s) :=
  (inside_queueOwed _ r _ s).trans (inside_turn _ _ rfl rfl)

theorem inside_refillTest {N : Nat → Prop} (s : State) : Inside N s (refillTest s) := by
  unfold refillTest; split
  · split
    · exact (inside_post _ _).after (inside_turn _ s rfl rfl)
    · exact Inside.refl N s
  · exact inside_turn _ s rfl rfl

theorem inside_endTurnBoost {N : Nat → Prop} (s : State) : Inside N s (endTurnBoost s) :=
  Inside.quiet (fun h => { h with }) rfl rfl

theorem inside_reportAhead {N : Nat → Prop} (b s : State) : Inside N s (reportAhead b s) := by
  unfold reportAhead; split <;> exact Inside.quiet (fun h => { h with }) rfl rfl

/-- Dropping the turn in flight. -/
theorem inside_land {N : Nat → Prop} (t : TurnEngine) (s : State) (a : t.flight = none) (b : t.change = s.turn.change) :
    Inside N s { s with turn := t } :=
  Inside.same (fun h => { h with flight := by simp [a], change := b ▸ h.change }) rfl

theorem inside_queuePress {N : Nat → Prop} (o : TurnOrigin) (r : KeyReason) (s : State) :
    Inside N s (queuePress o r s) := by
  unfold queuePress; split
  · exact inside_queueKey _ r s
  · exact inside_queueKey _ r s
  · exact Inside.refl N s

theorem inside_startTurn {N : Nat → Prop} (page : Nat) (d : TurnDirection) {e : TurnOrigin}
    (k : ∀ n ∈ e.requests, N n) (s : State) : Inside N s (startTurn page d e s) := by
  unfold startTurn
  split
  · split
    · exact (inside_post _ _).after ((inside_queuePress e _ _).after (inside_turn _ s rfl rfl))
    · exact Inside.same (fun h => { h with flight := by simpa using k }) rfl
  · exact (inside_post _ _).after ((inside_queuePress e _ _).after (inside_turn _ s rfl rfl))

theorem inside_turnKey {N : Nat → Prop} (e : KeyEvent) (s : State) : Inside N s (turnKey e s) := by
  unfold turnKey
  simp only
  split
  · exact inside_queueKey e _ s
  · exact inside_queueKey e _ s
  · exact inside_queueKey e _ s
  · split <;> exact inside_turn _ s rfl rfl
  · split
    · split
      · exact inside_startTurn _ _ (by simp [TurnOrigin.requests]) s
      · exact Inside.refl N s
    · split
      · exact inside_startTurn _ _ (by simp [TurnOrigin.requests]) s
      · exact Inside.refl N s

theorem inside_sendGiveUp {N : Nat → Prop} (s : State) : Inside N s (sendGiveUp s) := by
  refine Inside.same (fun h => { h with flight := fun f m => ?_ }) rfl
  obtain ⟨g, hg, rfl⟩ := Option.map_eq_some_iff.mp m
  exact h.flight g hg

theorem inside_stopAtFailure {N : Nat → Prop} (s : State) : Inside N s (stopAtFailure s) := by
  unfold stopAtFailure
  split
  · refine (inside_handOverOwed _ _).after ((inside_post _ _).after ?_)
    split
    · exact Inside.refl N s
    · exact inside_turn _ s rfl rfl
  · exact Inside.refl N s

/-- The origin of the turn in flight is among the numbers that are held. -/
theorem inside_answerOrigin {N : Nat → Prop} {f : TurnFlight} (h : ∀ n ∈ f.origin.requests, N n) (r : Result)
    (b : List Byte) (s : State) : Inside N s (answerOrigin f r b s) := by
  unfold answerOrigin
  split
  · next e => exact inside_answer (h _ (by simp [e, TurnOrigin.requests])) r b s
  · exact Inside.refl N s
  · exact Inside.refl N s

theorem inside_turnFailed {N : Nat → Prop} (r : Result) (s : State) : Inside N s (turnFailed r s) := by
  unfold turnFailed
  split
  · exact Inside.refl N s
  · next f e =>
    intro h
    exact ((inside_answerOrigin (h.flight f e) r [] _).after ((inside_endTurnBoost _).after
      ((inside_stopAtFailure _).after ((inside_sendGiveUp _).after
        (inside_land { s.turn with flight := none } s rfl rfl))))) h

theorem inside_if {N : Nat → Prop} {s : State} (c : Prop) [Decidable c] {x y : State} (a : Inside N s x)
    (b : Inside N s y) : Inside N s (if c then x else y) := by split <;> assumption

theorem inside_showFailed {N : Nat → Prop} (s : State) : Inside N s (showFailed s) := by
  unfold showFailed
  split
  · exact Inside.refl N s
  · next f e =>
    have t0 : Inside N s { s with turn.flight := none } := inside_land _ s rfl rfl
    have press : Inside N s (endTurnBoost (
        let v := queuePress f.origin .missed
          (if s.turn.state.autonomous then
            if s.turn.state = .stopped ∧ keepsReason s.turn.reason = true then { s with turn.flight := none }
            else { s with turn.flight := none, turn.state := .stopped, turn.reason := some .miss }
          else { s with turn.flight := none })
        if v.turn.state.autonomous then handOverOwed .stopped (post .turnStopped v) else v)) := by
      refine (inside_endTurnBoost _).after ?_
      have u : ∀ w, Inside N s w → Inside N s (if w.turn.state.autonomous = true then
          handOverOwed .stopped (post .turnStopped w) else w) := fun w a =>
        inside_if _ ((inside_handOverOwed _ _).after ((inside_post _ _).after a)) a
      refine u _ ((inside_queuePress _ _ _).after (inside_if _ (inside_if _ t0 ?_) t0))
      exact inside_land _ s rfl rfl
    simp only
    split
    · exact press
    · exact press
    · next request m =>
      intro h
      refine ((inside_answer (h.flight f e request (by simp [m, TurnOrigin.requests])) _ _ _).after
        ((inside_endTurnBoost _).after ?_)) h
      have u : ∀ w, Inside N s w → Inside N s (if w.turn.state.autonomous = true then
          handOverOwed .stopped (post .turnStopped w) else w) := fun w a =>
        inside_if _ ((inside_handOverOwed _ _).after ((inside_post _ _).after a)) a
      exact u _ (inside_if _ (inside_land _ s rfl rfl) t0)

theorem inside_takeOwed {N : Nat → Prop} (s : State) : Inside N s (takeOwed s) := by
  have go : ∀ page d (o : Int) k,
      Inside N s (startTurn page d (.owed k) { s with turn.owed := o, turn.state := .ready }) :=
    fun page d o k => (inside_startTurn page d (by simp [TurnOrigin.requests]) _).after (inside_turn _ s rfl rfl)
  have rest : ∀ t : State, Inside N s t →
      Inside N s (if t.turn.flight.isSome = true then t else endTurnBoost (handOverOwed .stopped t)) := fun t a =>
    inside_if _ a ((inside_endTurnBoost _).after ((inside_handOverOwed _ _).after a))
  have none : Inside N s (endTurnBoost { s with turn.owed := 0, turn.state := .ready }) :=
    (inside_endTurnBoost _).after (inside_turn { s.turn with owed := 0, state := .ready } s rfl rfl)
  unfold takeOwed
  generalize decide (0 < s.turn.owed) = forward
  cases forward <;>
    (simp only [if_true, if_false, Bool.false_eq_true]
     split
     · exact none
     · exact rest _ (go _ _ _ _))

theorem inside_turnSucceeded {N : Nat → Prop} (s : State) : Inside N s (turnSucceeded s) := by
  unfold turnSucceeded
  split
  · exact Inside.refl N s
  · next f e =>
    intro h
    simp only
    have go : ∀ w, Inside N s w → Inside N s (match w.turn.state with
        | .turning => if w.turn.owed = 0 then endTurnBoost { w with turn.state := .ready } else takeOwed w
        | _ => endTurnBoost w) := by
      intro w a
      split
      · split
        · exact (inside_endTurnBoost _).after ((inside_turn { w.turn with state := .ready } w rfl rfl).after a)
        · exact (inside_takeOwed w).after a
      · exact (inside_endTurnBoost _).after a
    refine go _ ((inside_answerOrigin (h.flight f e) _ _ _).after ((inside_refillTest _).after ?_)) h
    split
    · exact inside_land _ s rfl rfl
    · exact inside_land _ s rfl rfl

theorem inside_turnEnded {N : Nat → Prop} (r : Result) (s : State) : Inside N s (turnEnded r s) := by
  unfold turnEnded; split
  · exact inside_turnSucceeded s
  · exact inside_turnFailed r s

theorem inside_titleStopped {N : Nat → Prop} (h : Nat) (r : StopReason) (s : State) :
    Inside N s (titleStopped h r s) := by
  unfold titleStopped
  split
  · split
    · exact (inside_post _ _).after (inside_turn _ s rfl rfl)
    · exact (inside_handOverOwed _ _).after ((inside_post _ _).after (inside_turn _ s rfl rfl))
    · refine (inside_post _ _).after ?_
      split
      · exact Inside.refl N s
      · exact inside_turn _ s rfl rfl
    · exact Inside.refl N s
    · exact Inside.refl N s
  · exact Inside.refl N s

/-! ### The update queue and the slots -/

theorem inside_queue {N : Nat → Prop} (q : List UpdateEntry) (s : State)
    (a : (∀ e ∈ s.panel.queue, ∀ n ∈ e.requesters, N n) → ∀ e ∈ q, ∀ n ∈ e.requesters, N n) :
    Inside N s { s with panel.queue := q } :=
  Inside.same (fun h => { h with queue := a h.queue }) rfl

theorem inside_withdrawClaim {N : Nat → Prop} (o : ClaimOwner) (s : State) : Inside N s (withdrawClaim o s) :=
  Inside.quiet (fun h => { h with }) rfl rfl

theorem inside_endEntry {N : Nat → Prop} (r : Result) {e : UpdateEntry} (k : ∀ n ∈ e.requesters, N n) (s : State) :
    Inside N s (endEntry r e s) := by
  unfold endEntry
  simp only
  split
  · exact (inside_turnEnded r _).after (inside_answerAll k r [] s)
  · exact inside_answerAll k r [] s

theorem inside_endEntries {N : Nat → Prop} (r : Result) (gone : List UpdateEntry)
    (k : ∀ e ∈ gone, ∀ n ∈ e.requesters, N n) (s : State) :
    Inside N s (gone.foldl (fun v e => endEntry r e v) s) := by
  induction gone generalizing s with
  | nil => exact Inside.refl N s
  | cons e gone ih =>
    exact (inside_endEntry r (k e (List.mem_cons_self ..)) s).trans
      (ih (fun g m => k g (List.mem_cons_of_mem _ m)) _)

theorem inside_removeEntries {N : Nat → Prop} (which : UpdateEntry → Bool) (r : Result) (s : State) :
    Inside N s (removeEntries which r s) := by
  unfold removeEntries
  intro h
  refine ((inside_endEntries r _ (fun e m => h.queue e (List.mem_filter.mp m).1) _).after ?_) h
  have a : Inside N s { s with panel.queue := s.panel.queue.filter fun e => !which e } :=
    inside_queue _ s fun k e m => k e (List.mem_filter.mp m).1
  split
  · exact (inside_withdrawClaim _ _).after a
  · exact a

theorem inside_withdrawAdmission {N : Nat → Prop} (s : State) : Inside N s (withdrawAdmission s) := by
  refine (inside_withdrawClaim _ _).after (inside_queue _ s fun k e m => ?_)
  obtain ⟨g, hg, rfl⟩ := List.mem_map.mp m
  exact k g hg

theorem inside_setSlot {N : Nat → Prop} (i : Fin 28) (v : PageSlot) (s : State) : Inside N s (setSlot i v s) :=
  Inside.quiet (fun h => { h with }) rfl rfl

theorem inside_changeRecord {N : Nat → Prop} (h : Nat) (f : Persisted → Persisted) (s : State) :
    Inside N s (changeRecord h f s) := by
  unfold changeRecord
  split
  · obtain ⟨_, e⟩ := setRecord_eq h
      { s.recordAt h with
        toPersisted := { f (s.recordAt h).toPersisted with revision := (s.recordAt h).revision + 1 }, dirty := true } s
    simp only [e, reportSector]
    split <;> exact Inside.quiet (fun h => { h with }) rfl rfl
  · exact Inside.refl N s

theorem inside_testRetirement {N : Nat → Prop} (h : Nat) (s : State) : Inside N s (testRetirement h s) := by
  unfold testRetirement
  split
  · unfold completeRetirement
    refine (inside_post _ _).after ?_
    have b : ∀ n es u, Inside N s u → Inside N s (releaseExtents n es u) := fun n es u a =>
      a.trans (Inside.quiet (fun h => { h with }) rfl rfl)
    exact b _ _ _ (inside_changeRecord h _ s)
  · exact Inside.refl N s

theorem inside_freeSlotNow {N : Nat → Prop} (own : Bool) (i : Fin 28) (s : State) : Inside N s (freeSlotNow own i s) := by
  unfold freeSlotNow
  refine (inside_testRetirement _ _).after ?_
  have c : Inside N s { s with turn.flight := s.turn.flight.map (TurnFlight.loses i) } := by
    refine Inside.same (fun h => { h with flight := fun f m => ?_ }) rfl
    obtain ⟨g, hg, rfl⟩ := Option.map_eq_some_iff.mp m
    exact h.flight g hg
  have a : Inside N s (removeEntries (fun e => e.source == slotFrame i) .sourceGone
      (setSlot i PageSlot.blank { s with turn.flight := s.turn.flight.map (TurnFlight.loses i) })) :=
    (inside_removeEntries _ _ _).after ((inside_setSlot _ _ _).after c)
  have b : ∀ u, Inside N s u → Inside N s { u with turn.lastShow := none } := fun u a =>
    a.trans (inside_turn { u.turn with lastShow := none } u rfl rfl)
  split
  · exact b _ a
  · exact a

theorem inside_freeSlots {N : Nat → Prop} (is : List (Fin 28)) (s : State) : Inside N s (freeSlots is s) := by
  unfold freeSlots
  induction is generalizing s with
  | nil => exact Inside.refl N s
  | cons i is ih => exact (inside_freeSlotNow false i s).trans (ih _)

/-! ### The catalogue -/

theorem inside_setRecord {N : Nat → Prop} (h : Nat) (r : TitleRecord) (s : State) : Inside N s (setRecord h r s) := by
  obtain ⟨_, e⟩ := setRecord_eq h r s
  rw [e]
  exact Inside.quiet (fun h => { h with }) rfl rfl

theorem inside_setHolds {N : Nat → Prop} (h n : Nat) (s : State) : Inside N s (setHolds h n s) := inside_setRecord h _ s

theorem inside_editRecord {N : Nat → Prop} (h : Nat) (f : Persisted → Persisted) (s : State) :
    Inside N s (editRecord h f s) := by
  unfold editRecord; split
  · exact Inside.refl N s
  · exact inside_changeRecord h f s

theorem inside_leaveExpiry {N : Nat → Prop} (h : Nat) (s : State) : Inside N s (leaveExpiry h s) :=
  Inside.quiet (fun h => { h with }) rfl rfl

theorem inside_placeExpiry {N : Nat → Prop} (h : Nat) (s : State) : Inside N s (placeExpiry h s) := by
  unfold placeExpiry
  simp only
  split <;> exact Inside.quiet (fun h => { h with }) rfl rfl

theorem inside_placeOp {N : Nat → Prop} (c : Nat) (d : Bool) {j : FlashJob} (k : ∀ n ∈ j.requests, N n) (s : State) :
    Inside N s (placeOp c d j s) :=
  Inside.quiet (fun h => { h with
    waiting := by
      intro op m
      rcases List.mem_append.mp m with m | m
      · exact h.waiting op m
      · rw [List.mem_singleton.mp m]; exact k }) rfl rfl

theorem inside_withdrawOps {N : Nat → Prop} (w : FlashJob → Bool) (s : State) : Inside N s (withdrawOps w s) :=
  Inside.quiet (fun h => { h with waiting := fun op m => h.waiting op (List.mem_filter.mp m).1 }) rfl rfl

theorem inside_endOperation {N : Nat → Prop} (s : State) : Inside N s (endOperation s) :=
  Inside.quiet (fun h => { h with phase := by simp [endOperation, giveBack, PortPhase.requests] }) rfl rfl

theorem inside_dropReads {N : Nat → Prop} (q : TitleRead → Bool) (s : State) :
    Inside N s { s with cat.reads := s.cat.reads.filter q } :=
  Inside.quiet (fun h => { h with reads := fun r m => h.reads r (List.mem_filter.mp m).1 }) rfl rfl

theorem inside_withdrawReads {N : Nat → Prop} (h : Nat) (r : Result) (s : State) : Inside N s (withdrawReads h r s) := by
  unfold withdrawReads
  intro k
  refine ((inside_answerAll ?_ r [] _).after ((inside_withdrawOps _ _).after
    (inside_dropReads _ s))) k
  intro n m
  obtain ⟨q, hq, rfl⟩ := List.mem_map.mp m
  exact k.reads q (List.mem_filter.mp hq).1

theorem inside_endTransfer {N : Nat → Prop} (i : Fin 4) (s : State) : Inside N s (endTransfer i s) := by
  have go : ∀ (b : Vector (Option Segment) 4) (u : State), Inside N s u →
      Inside N s (setTransfer i TransferSlot.blank { u with dl.buffers := b }) := fun b u a =>
    a.trans (Inside.quiet (fun h => { h with }) rfl rfl)
  unfold endTransfer
  exact go _ _ (inside_withdrawOps _ s)

theorem inside_fetchEnded {N : Nat → Prop} (h : Nat) (st : TitleState) (r : FetchResult) (s : State) :
    Inside N s (fetchEnded h st r s) := by
  unfold fetchEnded; split
  · exact inside_changeRecord h _ s
  · exact Inside.refl N s

theorem inside_failTransfer {N : Nat → Prop} (i : Fin 4) (r : FetchResult) (s : State) :
    Inside N s (failTransfer i r s) :=
  (inside_post _ _).after ((inside_fetchEnded _ _ _ _).after (inside_endTransfer i s))

theorem inside_neighbourEffects {N : Nat → Prop} (h : Nat) (fetching : Bool) (r : StopReason) (s : State) :
    Inside N s (neighbourEffects h fetching r s) := by
  unfold neighbourEffects
  refine (inside_withdrawReads _ _ _).after ?_
  have a := (inside_titleStopped (N := N) h r _).after (inside_freeSlots (s.invalidated h fun _ => true) s)
  split
  · split
    · exact (inside_endTransfer _ _).after a
    · exact a
  · exact a

theorem inside_retire {N : Nat → Prop} (h : Nat) (s : State) : Inside N s (retire h s) :=
  (inside_testRetirement _ _).after ((inside_neighbourEffects _ _ _ _).after
    ((inside_leaveExpiry _ _).after (inside_changeRecord h _ s)))

theorem inside_expire {N : Nat → Prop} (h : Nat) (s : State) : Inside N s (expire h s) :=
  (inside_neighbourEffects _ _ _ _).after ((inside_leaveExpiry _ _).after (inside_changeRecord h _ s))

theorem inside_retireIfExpired {N : Nat → Prop} (h : Nat) (s : State) : Inside N s (retireIfExpired h s) := by
  unfold retireIfExpired; split
  · exact inside_retire h s
  · exact Inside.refl N s

theorem inside_retireExpired {N : Nat → Prop} (hs : List Nat) (s : State) : Inside N s (retireExpired hs s) := by
  unfold retireExpired
  induction hs generalizing s with
  | nil => exact Inside.refl N s
  | cons h hs ih => exact (inside_retireIfExpired h s).trans (ih _)

theorem inside_expireDue {N : Nat → Prop} (fuel : Nat) (done : List Nat) (s : State) :
    Inside N s (expireDue fuel done s).2 := by
  induction fuel generalizing done s with
  | zero => exact Inside.refl N s
  | succ n ih =>
    unfold expireDue
    split
    · exact Inside.refl N s
    · split
      · exact (inside_expire _ s).trans (ih _ _)
      · exact Inside.refl N s

theorem inside_processExpiries {N : Nat → Prop} (s : State) : Inside N s (processExpiries s) := by
  unfold processExpiries
  split
  · simp only
    split
    · exact Inside.refl N s
    · exact (inside_retireExpired _ _).after ((inside_post _ _).after (inside_expireDue _ _ s))
  · exact Inside.refl N s

theorem inside_holdsGone {N : Nat → Prop} (h : Nat) (s : State) : Inside N s (holdsGone h s) := by
  unfold holdsGone; split
  · exact (inside_retireIfExpired _ _).after (inside_testRetirement _ s)
  · exact Inside.refl N s

/-! ### Requests -/

/-- The checks of R4 let a change request through. -/
theorem changeChecks_pass {code : RequestCode} {f : Frame} {s : State} (hs : changeStands f s)
    (states : TitleState → Option Result) (limits : TitleRecord → Option Result)
    (a : states (s.recordAt (field (Frame.body f) 0 2)).state = none)
    (b : limits (s.recordAt (field (Frame.body f) 0 2)) = none) :
    changeChecks f states limits (accept code f (endFetch s)) = none := by
  have ha : (Frame.revision f).any
      (fun v => v != (s.recordAt (field (Frame.body f) 0 2)).revision) = false := by
    cases e : Frame.revision f with
    | none => rfl
    | some v => have := hs.2 v e; subst this; simp
  have hrec : ((accept code f (endFetch s)).recordAt (field (Frame.body f) 0 2)) = (s.recordAt (field (Frame.body f) 0 2)) := rfl
  simp only [changeChecks, hs.1, hrec, ha, a, b]; rfl

theorem liveOnly_none {x : TitleState} (a : x ≠ .empty) (b : x ≠ .retiring) : liveOnly x = none := by
  cases x <;> simp_all [liveOnly]

/-- A request that its owner answers in its event with a state in which only the parts named have changed. -/
theorem hostRequest_replies {code : RequestCode} {f : Frame} {s v : State} {own : Nat → State → Verdict} (ht : takes code f s) (fresh : numbersFresh s)
    (na : code.takenAsleep = false)
    (r : Result) (pl : List Byte) (changed : List Part)
    (e : own s.link.nextId (accept code f (endFetch s)) = .acted (answer s.link.nextId r pl v))
    (hl : v.link = (accept code f (endFetch s)).link) (hpw : v.power.entry = s.power.entry)
    (hk : ∀ p : Part, p ∉ changed → p.kept (accept code f (endFetch s)) v) (hport : .port ∈ changed)
    (hout : .outstanding ∈ changed):
    ∃ t, hostRequest code f own s = .next t ∧ (∀ p : Part, p.lasting = true → p ≠ .port → p.kept v t) ∧
      replies code f r pl s t ∧ keptBut changed s t := by
  have hne : s.power.entry = none := takes_noEntry ht na
  have w : shelfWaits (answer s.link.nextId r pl v) := by
    intro c; rw [power_answer, hpw, hne] at c; cases c
  obtain ⟨t, ht1, ht2, ht3, _⟩ := hostRequest_next ht e w
  refine ⟨t, ht1, ?_, ?_, ?_⟩
  · intro p hl hp
    exact p.kept_trans (kept_answer p hl _ _ _ _) (ht2 p hl hp)
  · have := ht3 (by rw [power_answer, hpw, hne])
    rw [answer_accept fresh hl] at this
    exact this
  · intro p hl hp
    have h1 : p ≠ .port := fun e => hp (e ▸ hport)
    have h2 : p ≠ .outstanding := fun e => hp (e ▸ hout)
    exact p.kept_trans (kept_accept p h1 h2 code f s) (p.kept_trans (hk p hp)
      (p.kept_trans (kept_answer p hl _ _ _ _) (ht2 p hl h1)))

/-- The same where the owner's rule may answer other requests before its own. -/
theorem hostRequest_hasReply {code : RequestCode} {f : Frame} {s v : State} {own : Nat → State → Verdict}
    (ht : takes code f s) (g : numbersGiven s) (na : code.takenAsleep = false)
    (r : Result) (pl : List Byte) (changed : List Part)
    (e : own s.link.nextId (accept code f (endFetch s)) = .acted (answer s.link.nextId r pl v))
    (hi : Inside (· < s.link.nextId) (accept code f (endFetch s)) v) (hpw : v.power.entry = s.power.entry)
    (hk : ∀ p : Part, p ∉ changed → p.kept (accept code f (endFetch s)) v) (hport : .port ∈ changed)
    (hout : .outstanding ∈ changed) :
    ∃ t, hostRequest code f own s = .next t ∧ (∀ p : Part, p.lasting = true → p ≠ .port → p.kept v t) ∧
      hasReply code f r pl t ∧ keptBut changed s t := by
  have hne : s.power.entry = none := takes_noEntry ht na
  have w : shelfWaits (answer s.link.nextId r pl v) := by
    intro c; rw [power_answer, hpw, hne] at c; cases c
  obtain ⟨t, ht1, ht2, ht3, _⟩ := hostRequest_next ht e w
  refine ⟨t, ht1, fun p hl hp => p.kept_trans (kept_answer p hl _ _ _ _) (ht2 p hl hp), ?_, ?_⟩
  · have a := (ht3 (by rw [power_answer, hpw, hne])).1
    rw [answer_own g hi] at a
    simp [hasReply, a]
  · intro p hl hp
    have h1 : p ≠ .port := fun e => hp (e ▸ hport)
    have h2 : p ≠ .outstanding := fun e => hp (e ▸ hout)
    exact p.kept_trans (kept_accept p h1 h2 code f s) (p.kept_trans (hk p hp)
      (p.kept_trans (kept_answer p hl _ _ _ _) (ht2 p hl h1)))

end Sys2Proof.Machine
end

