-- ==== Sys2Proof/Laws/Settles.lean ====
section
/-! SUPPORT. The settling of an event ends with no effect left to run, and with everything recomputed. -/

namespace Sys2Proof.Machine

/-! ### How many effects an event can still have -/

/-- A boost mark is raised in READING. -/
def State.wantsBoost (s : State) : Bool :=
  s.power.state == .reading && (s.power.turnBoost || s.power.downloadBoost)

/-- The boost claim is granted or waits. -/
def State.boostClaimed (s : State) : Bool := s.boostGranted || s.boostWaiting

/-- More than the effects that an event can still have before another event. -/
def State.effectsLeft (s : State) : Nat :=
  s.power.waiting.length + (if s.wb.inFlight = none then 1 else 0) + (if s.port.phase = .idle then 2 else 0)
    + (if s.inAdmission = none then 2 else 0) + 4 * (4 - s.busyLanes) + (if s.boostClaimed then 0 else 2)

theorem effectsLeft_le (s : State) : s.effectsLeft ≤ s.power.waiting.length + 23 := by
  unfold State.effectsLeft
  have := s.busyLanes
  split <;> split <;> split <;> split <;> omega

/-- What one effect of an event can do to the claims and the lanes. -/
structure EffectOf (s t : State) : Prop where
  clock : t.power.clock = s.power.clock
  granted : s.boostGranted = true → t.boostGranted = true
  busy : s.busyLanes ≤ t.busyLanes
  boost : s.wantsBoost = false → s.boostClaimed = false → t.boostClaimed = false
  fewer : t.effectsLeft < s.effectsLeft

theorem boostClaimed_placeClaim {o : ClaimOwner} (no : (o == .boost) = false) (units : Nat) (s : State) :
    (placeClaim o units s).boostClaimed = s.boostClaimed := by
  unfold State.boostClaimed State.boostGranted State.boostWaiting placeClaim
  simp only [List.any_append, List.any_cons, List.any_nil, no, Bool.or_false]

/-! ### Each effect -/

theorem effectOf_unload {s t : State} (e : chooseUnload s = some t) : EffectOf s t := by
  unfold chooseUnload at e
  split at e
  · next due =>
    cases e
    unfold State.unloadDue at due
    split at due
    · cases due
    · next head rest q =>
      have idle : s.wb.inFlight = none := by
        simp only [Bool.and_eq_true, Option.isNone_iff_eq_none] at due
        exact due.1.1.2
      obtain ⟨records, c⟩ := foldl_setRecord_eq (sectorHandles head.sector) (fun t h => { t.recordAt h with dirty := false }) s
      have u : ∃ v : State, unload s = v ∧ v.power = s.power ∧ v.panel = s.panel ∧ v.port.phase = s.port.phase
          ∧ v.wb.inFlight ≠ none := by
        refine ⟨_, rfl, ?_, ?_, ?_, ?_⟩ <;> unfold unload <;> simp only [q, cleanSector, c] <;> first | rfl | exact nofun
      obtain ⟨v, rfl, power, panel, phase, flight⟩ := u
      have busy : (unload s).busyLanes = s.busyLanes := by unfold State.busyLanes; rw [panel]
      have claimed : (unload s).boostClaimed = s.boostClaimed := by
        unfold State.boostClaimed State.boostGranted State.boostWaiting; rw [power]
      refine ⟨by rw [power], ?_, Nat.le_of_eq busy.symm, fun _ h => by rw [claimed]; exact h, ?_⟩
      · intro h
        unfold State.boostGranted at h ⊢
        rw [power]
        exact h
      · have admission : (unload s).inAdmission = s.inAdmission := by unfold State.inAdmission; rw [panel]
        unfold State.effectsLeft
        rw [power, phase, busy, claimed, admission, if_neg flight, if_pos idle]
        omega
  · cases e

theorem effectOf_choosePort {s t : State} (e : choosePort s = some t) : EffectOf s t := by
  unfold choosePort at e
  split at e
  · next idle =>
    simp only [Option.map_eq_some_iff] at e
    obtain ⟨op, _, rfl⟩ := e
    have u : ∃ v : State, portGranted op.job { s with port := ⟨.claiming op, s.port.waiting.erase op⟩ } = v
        ∧ v.power = s.power ∧ v.panel = s.panel ∧ v.port.phase = .claiming op ∧ v.wb = s.wb := by
      refine ⟨_, rfl, ?_, ?_, ?_, ?_⟩ <;> unfold portGranted <;> split <;> rfl
    obtain ⟨v, e, power, panel, phase, wb⟩ := u
    rw [e]
    have busy : (placeClaim .port op.job.claim v).busyLanes = s.busyLanes := by
      unfold State.busyLanes placeClaim; rw [panel]
    have admission : (placeClaim .port op.job.claim v).inAdmission = s.inAdmission := by
      unfold State.inAdmission placeClaim; rw [panel]
    have claimed : (placeClaim .port op.job.claim v).boostClaimed = s.boostClaimed := by
      rw [boostClaimed_placeClaim rfl]
      unfold State.boostClaimed State.boostGranted State.boostWaiting
      rw [power]
    refine ⟨by simp only [placeClaim, power], ?_, Nat.le_of_eq busy.symm, fun _ h => by rw [claimed]; exact h, ?_⟩
    · intro h
      unfold State.boostGranted at h
      unfold State.boostGranted placeClaim
      rw [power]
      exact h
    · unfold State.effectsLeft
      rw [busy, claimed, admission]
      simp only [placeClaim, power, phase, wb, idle, List.length_append]
      simp
      omega
  · cases e

theorem mem_firstFree {lanes : List Lane} {e : UpdateEntry} :
    ∀ {queue ahead : List UpdateEntry}, firstFree lanes ahead queue = some e → e ∈ queue
  | [], _, h => by cases h
  | q :: rest, ahead, h => by
    unfold firstFree at h
    split at h
    · cases h; exact List.mem_cons_self
    · exact List.mem_cons_of_mem _ (mem_firstFree h)

theorem effectOf_choosePanel {s t : State} (e : choosePanel s = some t) : EffectOf s t := by
  unfold choosePanel at e
  simp only [Option.map_eq_some_iff] at e
  obtain ⟨q, e, rfl⟩ := e
  unfold State.nextAdmissible at e
  split at e
  · next free =>
    have before : s.inAdmission = none := by
      simp only [Bool.and_eq_true, Option.isNone_iff_eq_none] at free
      exact free.1.1.2
    have mem : q ∈ s.panel.queue := by
      have m := mem_firstFree e
      unfold admissionOrder at m
      rcases List.mem_append.mp m with m | m <;> exact (List.mem_filter.mp m).1
    have claimed : (beginAdmission q s).boostClaimed = s.boostClaimed := by
      unfold beginAdmission
      exact boostClaimed_placeClaim rfl ..
    refine ⟨rfl, id, Nat.le_refl _, fun _ h => by rw [claimed]; exact h, ?_⟩
    have after : (beginAdmission q s).inAdmission ≠ none := by
      intro n
      unfold State.inAdmission beginAdmission placeClaim markAdmission at n
      have := List.find?_eq_none.mp n _ (List.mem_map.mpr ⟨q, mem, rfl⟩)
      simp at this
    unfold State.effectsLeft
    rw [claimed, if_neg after, if_pos before]
    show (s.power.waiting ++ [_]).length + (if s.wb.inFlight = none then 1 else 0)
      + (if s.port.phase = .idle then 2 else 0) + 0 + 4 * (4 - s.busyLanes) + _ < _
    rw [List.length_append, List.length_singleton]
    omega
  · cases e

theorem effectOf_placeBoost {s t : State} (e : placeBoost s = some t) : EffectOf s t := by
  unfold placeBoost at e
  split at e
  · next h =>
    cases e
    obtain ⟨state, marks, unclaimed⟩ := h
    refine ⟨rfl, id, Nat.le_refl _, fun w => ?_, ?_⟩
    · unfold State.wantsBoost at w
      rw [state, marks] at w
      exact absurd w (by decide)
    · have before : s.boostClaimed = false := unclaimed
      have after : (placeClaim .boost 15 s).boostClaimed = true := by
        unfold State.boostClaimed State.boostWaiting placeClaim
        simp only [List.any_append]
        simp
      unfold State.effectsLeft
      rw [before, after]
      show (s.power.waiting ++ [_]).length + (if s.wb.inFlight = none then 1 else 0)
        + (if s.port.phase = .idle then 2 else 0) + (if s.inAdmission = none then 2 else 0) + 4 * (4 - s.busyLanes) + 0 < _
      rw [List.length_append, List.length_singleton]
      have : (if false = true then 0 else 2) = 2 := rfl
      omega
  · cases e

/-- A lane that is taken in by an IDLE one makes one more busy lane. -/
theorem busyLanes_setLane (i : Fin 4) (l : Lane) (s : State) (idle : s.panel.lanes[i].state = .idle) (busy : l.state ≠ .idle) :
    (setLane i l s).busyLanes = s.busyLanes + 1 := by
  unfold State.busyLanes setLane
  rw [← List.countP_eq_length_filter, ← List.countP_eq_length_filter]
  simp only [Vector.toList_set]
  rw [List.countP_set (by simp)]
  have a : s.panel.lanes.toList[(i : Nat)]'(by simp) = s.panel.lanes[i] := by simp
  rw [a, idle]
  simp [busy]

theorem busyLanes_le (s : State) : s.busyLanes ≤ 4 := by
  unfold State.busyLanes
  exact Nat.le_trans (List.length_filter_le ..) (by simp)

/-- What the admission of the entry in admission can do. -/
theorem admitEntry_does (s : State) :
    admitEntry s = s ∨ ∃ i units, (admitEntry s).power.granted = s.power.granted ++ [⟨.lane i, units⟩]
      ∧ (admitEntry s).power.waiting = s.power.waiting ∧ (admitEntry s).power.clock = s.power.clock
      ∧ (admitEntry s).busyLanes = s.busyLanes + 1 ∧ (admitEntry s).wb = s.wb ∧ (admitEntry s).port = s.port := by
  unfold admitEntry
  split
  · next q i _ free =>
    split
    · exact Or.inl rfl
    · next a _ =>
      refine Or.inr ⟨i, a.mode.claim, ?_⟩
      have idle : s.panel.lanes[i].state = .idle := by
        have := List.find?_some free
        simpa using this
      split
      all_goals
        refine ⟨rfl, rfl, rfl, ?_, rfl, rfl⟩
        exact busyLanes_setLane i _ _ idle (by simp)
  · exact Or.inl rfl

/-- What a grant of the head waiting claim can do. -/
theorem effectOf_grant {s t : State} {c : Claim} {rest : List Claim} (w : s.power.waiting = c :: rest)
    (waiting : t.power.waiting = rest) (clock : t.power.clock = s.power.clock)
    (granted : t.power.granted = s.power.granted ∧ (c.owner == .boost) = false
      ∨ ∃ d, t.power.granted = s.power.granted ++ [d] ∧ (d.owner == .boost) = (c.owner == .boost))
    (flight : t.wb.inFlight = s.wb.inFlight) (phase : t.port.phase = .idle → s.port.phase = .idle)
    (busy : t.busyLanes = s.busyLanes + 1 ∨ t.busyLanes = s.busyLanes ∧ t.inAdmission = s.inAdmission) :
    EffectOf s t := by
  have claimed : t.boostClaimed = s.boostClaimed := by
    unfold State.boostClaimed State.boostGranted State.boostWaiting
    rw [waiting, w, List.any_cons]
    rcases granted with ⟨g, no⟩ | ⟨d, g, same⟩
    · rw [g, no, Bool.false_or]
    · rw [g, List.any_append, List.any_cons, List.any_nil, same, Bool.or_false, Bool.or_assoc]
  refine ⟨clock, fun h => ?_, by omega, fun _ h => by rw [claimed]; exact h, ?_⟩
  · unfold State.boostGranted at h ⊢
    rcases granted with ⟨g, _⟩ | ⟨d, g, _⟩
    · rw [g]; exact h
    · rw [g, List.any_append, h, Bool.true_or]
  · have p : (if t.port.phase = .idle then 2 else 0) ≤ (if s.port.phase = .idle then 2 else 0) := by
      by_cases h : t.port.phase = .idle
      · exact Nat.le_of_eq (by rw [if_pos h, if_pos (phase h)])
      · rw [if_neg h]; exact Nat.zero_le _
    have l := busyLanes_le t
    unfold State.effectsLeft
    rw [waiting, w, flight, claimed, List.length_cons]
    rcases busy with b | ⟨b, a⟩
    · have : (if t.inAdmission = none then 2 else 0) ≤ 2 := by split <;> omega
      omega
    · rw [a, b]; omega

theorem effectOf_grantHead {s t : State} (e : grantHead s = some t) : EffectOf s t := by
  unfold grantHead at e
  split at e
  · cases e
  · next c rest w =>
    split at e
    · cases e
      unfold grantTo
      split
      · next o =>
        rcases admitEntry_does { s with power.waiting := rest } with e | ⟨i, n, g, wt, k, b, wb, port⟩
        · rw [e]
          exact effectOf_grant w rfl rfl (Or.inl ⟨rfl, by rw [o]; rfl⟩) rfl id (Or.inr ⟨rfl, rfl⟩)
        · exact effectOf_grant w wt k (Or.inr ⟨_, g, by rw [o]; rfl⟩) (by rw [wb]) (by rw [port]; exact id) (Or.inl b)
      · next o =>
        split
        · exact effectOf_grant w rfl rfl (Or.inr ⟨c, rfl, rfl⟩) rfl nofun (Or.inr ⟨rfl, rfl⟩)
        · exact effectOf_grant w rfl rfl (Or.inl ⟨rfl, by rw [o]; rfl⟩) rfl id (Or.inr ⟨rfl, rfl⟩)
      all_goals exact effectOf_grant w rfl rfl (Or.inr ⟨c, rfl, rfl⟩) rfl id (Or.inr ⟨rfl, rfl⟩)
    · cases e

theorem effectOf_settleOnce {s t : State} (e : settleOnce s = some t) : EffectOf s t := by
  unfold settleOnce at e
  simp only [Option.orElse_eq_or, Option.or_eq_some_iff] at e
  rcases e with e | ⟨_, e | ⟨_, e | ⟨_, e | ⟨_, e⟩⟩⟩⟩
  · exact effectOf_unload e
  · exact effectOf_grantHead e
  · exact effectOf_choosePort e
  · exact effectOf_choosePanel e
  · exact effectOf_placeBoost e

/-! ### The settling -/

/-- The boost has a claim only where it is wanted, and the clock follows its inputs: nothing is left for `tidy` to withdraw. -/
def State.tidied (s : State) : Prop := (s.wantsBoost = true ∨ s.boostClaimed = false) ∧ s.power.clock = s.clockRate

theorem boostClaimed_boostDrop (s : State) : (boostDrop s).wantsBoost = true ∨ (boostDrop s).boostClaimed = false := by
  unfold boostDrop
  split
  · next h => exact Or.inl (by unfold State.wantsBoost; rw [h.1, h.2]; rfl)
  · refine Or.inr ?_
    unfold State.boostClaimed State.boostGranted State.boostWaiting withdrawClaim giveBack
    simp

theorem tidied_tidy (s : State) : (tidy s).tidied := by
  have b := boostClaimed_boostDrop s
  generalize e : boostDrop s = u at b
  have w : (tidy s).wantsBoost = u.wantsBoost ∧ ((tidy s).boostClaimed = true → u.boostClaimed = true)
      ∧ (tidy s).power.clock = u.clockRate ∧ (tidy s).clockRate = u.clockRate := by
    unfold tidy
    rw [e]
    unfold clockFix
    simp only
    split
    · refine ⟨rfl, fun h => ?_, rfl, rfl⟩
      unfold State.boostClaimed State.boostGranted State.boostWaiting lightFit withdrawAdmission withdrawClaim at h
      unfold State.boostClaimed State.boostGranted State.boostWaiting
      simp only [List.any_filter] at h
      simp only [Bool.or_eq_true, List.any_eq_true, Bool.and_eq_true] at h ⊢
      exact h.imp_right fun ⟨c, m, _, o⟩ => ⟨c, m, o⟩
    · exact ⟨rfl, id, rfl, rfl⟩
  obtain ⟨same, fewer, clock, rate⟩ := w
  refine ⟨?_, clock.trans rate.symm⟩
  rw [same]
  rcases b with b | b
  · exact Or.inl b
  · refine Or.inr ?_
    cases h : (tidy s).boostClaimed with
    | false => rfl
    | true => rw [fewer h] at b; cases b

/-- Where no boost claim is to be withdrawn and the clock does not fall, `tidy` leaves the claims, the lanes, the queue, the
port and the write in flight alone. -/
theorem effectsLeft_tidy {t : State} (b : t.wantsBoost = true ∨ t.boostClaimed = false)
    (c : t.clockRate = .full ∨ t.power.clock = .economy) : (tidy t).effectsLeft = t.effectsLeft := by
  have drop : boostDrop t = t := by
    unfold boostDrop
    split
    · rfl
    · next h =>
      rcases b with b | b
      · unfold State.wantsBoost at b
        simp only [Bool.and_eq_true, beq_iff_eq] at b
        exact absurd b h
      · unfold State.boostClaimed State.boostGranted State.boostWaiting at b
        simp only [Bool.or_eq_false_iff, List.any_eq_false, beq_iff_eq] at b
        unfold withdrawClaim giveBack
        have g : t.power.granted.filter (fun c => decide (c.owner ≠ .boost)) = t.power.granted :=
          List.filter_eq_self.mpr fun c m => by simpa using b.1 c m
        have w : t.power.waiting.filter (fun c => decide (c.owner ≠ .boost)) = t.power.waiting :=
          List.filter_eq_self.mpr fun c m => by simpa using b.2 c m
        simp only [g, w]
  unfold tidy
  rw [drop]
  unfold clockFix
  simp only
  split
  · next h =>
    rcases c with c | c
    · rw [h.1] at c; cases c
    · rw [h.2.1] at c; cases c
  · rfl

theorem clockRate_mono {s t : State} (same : t.powerRest = s.powerRest) (e : EffectOf s t) (f : s.clockRate = .full) :
    t.clockRate = .full := by
  have state : t.power.state = s.power.state := (congrArg Power.state same : t.powerRest.state = s.powerRest.state)
  unfold State.clockRate at f ⊢
  rw [state]
  split at f
  all_goals simp_all
  intro h
  by_cases g : s.boostGranted = true
  · exact absurd (e.granted g) (by simp [h])
  · exact Nat.lt_of_lt_of_le (f (by simpa using g)) e.busy

theorem wantsBoost_congr {s t : State} (same : t.powerRest = s.powerRest) : t.wantsBoost = s.wantsBoost := by
  have a : t.power.state = s.power.state :=
    (congrArg Power.state same : t.powerRest.state = s.powerRest.state)
  have b : t.power.turnBoost = s.power.turnBoost :=
    (congrArg Power.turnBoost same : t.powerRest.turnBoost = s.powerRest.turnBoost)
  have c : t.power.downloadBoost = s.power.downloadBoost :=
    (congrArg Power.downloadBoost same : t.powerRest.downloadBoost = s.powerRest.downloadBoost)
  unfold State.wantsBoost
  rw [a, b, c]

/-- Each further effect of an event leaves fewer. -/
theorem fewer_effects {s t : State} (d : s.tidied) (e : settleOnce s = some t) : (tidy t).effectsLeft < s.effectsLeft := by
  have x := effectOf_settleOnce e
  have same := powerRest_settleOnce e
  rw [effectsLeft_tidy]
  · exact x.fewer
  · rw [wantsBoost_congr same]
    by_cases w : s.wantsBoost = true
    · exact Or.inl w
    · exact Or.inr (x.boost (by simpa using w) (d.1.resolve_left w))
  · rw [x.clock, d.2]
    cases r : s.clockRate with
    | full => exact Or.inl (clockRate_mono same x r)
    | economy => exact Or.inr rfl

/-- With enough fuel the effects of an event run until none is left. -/
theorem settleBy_done (fuel : Nat) (s : State) (h : (tidy s).effectsLeft ≤ fuel) :
    ∃ u, settleBy fuel s = tidy u ∧ settleOnce (tidy u) = none := by
  induction fuel generalizing s with
  | zero =>
    refine ⟨s, rfl, ?_⟩
    cases e : settleOnce (tidy s) with
    | none => rfl
    | some t => exact absurd (fewer_effects (tidied_tidy s) e) (by omega)
  | succ n ih =>
    unfold settleBy
    split
    · next e => exact ⟨s, rfl, e⟩
    · next t e => exact ih t (by have := fewer_effects (tidied_tidy s) e; omega)

theorem waiting_tidy (s : State) : (tidy s).power.waiting.length ≤ s.power.waiting.length := by
  have drop : (boostDrop s).power.waiting.length ≤ s.power.waiting.length := by
    unfold boostDrop
    split
    · exact Nat.le_refl _
    · exact List.length_filter_le ..
  refine Nat.le_trans ?_ drop
  unfold tidy clockFix
  simp only
  split
  · exact List.length_filter_le ..
  · exact Nat.le_refl _

/-- After the settling of an event nothing waits that could be granted, chosen or placed, and everything is recomputed. -/
theorem settle_done (s : State) : ∃ u, settle s = tidy u ∧ settleOnce (settle s) = none := by
  obtain ⟨u, e, d⟩ := settleBy_done (s.power.waiting.length + 40) s
    (by have := effectsLeft_le (tidy s); have := waiting_tidy s; omega)
  exact ⟨u, e, by unfold settle; rw [e]; exact d⟩

end Sys2Proof.Machine
end

