-- ==== Sys2Proof/Laws/State.lean ====
section
/-! SUPPORT. What each named update of the state does to each field. -/

namespace Sys2Proof.Machine

/-! ### post -/

@[simp] theorem pending_of_post (r : Reason) (s : State) : (post r s).pending = s.pending := rfl
@[simp] theorem cat_of_post (r : Reason) (s : State) : (post r s).cat = s.cat := rfl
@[simp] theorem blocks_of_post (r : Reason) (s : State) : (post r s).blocks = s.blocks := rfl
@[simp] theorem flash_of_post (r : Reason) (s : State) : (post r s).flash = s.flash := rfl
@[simp] theorem port_of_post (r : Reason) (s : State) : (post r s).port = s.port := rfl
@[simp] theorem wb_of_post (r : Reason) (s : State) : (post r s).wb = s.wb := rfl
@[simp] theorem dl_of_post (r : Reason) (s : State) : (post r s).dl = s.dl := rfl
@[simp] theorem radio_of_post (r : Reason) (s : State) : (post r s).radio = s.radio := rfl
@[simp] theorem pm_of_post (r : Reason) (s : State) : (post r s).pm = s.pm := rfl
@[simp] theorem turn_of_post (r : Reason) (s : State) : (post r s).turn = s.turn := rfl
@[simp] theorem keys_of_post (r : Reason) (s : State) : (post r s).keys = s.keys := rfl
@[simp] theorem panel_of_post (r : Reason) (s : State) : (post r s).panel = s.panel := rfl
@[simp] theorem waveform_of_post (r : Reason) (s : State) : (post r s).waveform = s.waveform := rfl
@[simp] theorem light_of_post (r : Reason) (s : State) : (post r s).light = s.light := rfl
@[simp] theorem power_of_post (r : Reason) (s : State) : (post r s).power = s.power := rfl
@[simp] theorem keep_of_post (r : Reason) (s : State) : (post r s).keep = s.keep := rfl
@[simp] theorem supplies_of_post (r : Reason) (s : State) : (post r s).supplies = s.supplies := rfl
@[simp] theorem faults_of_post (r : Reason) (s : State) : (post r s).faults = s.faults := rfl
@[simp] theorem settings_of_post (r : Reason) (s : State) : (post r s).settings = s.settings := rfl
@[simp] theorem storedSize_of_post (r : Reason) (s : State) : (post r s).storedSize = s.storedSize := rfl
@[simp] theorem settingsGood_of_post (r : Reason) (s : State) : (post r s).settingsGood = s.settingsGood := rfl
@[simp] theorem link_of_post (r : Reason) (s : State) :
    (post r s).link = { s.link with attention := s.link.attention ||| r.bit } := rfl
@[simp] theorem pins_of_post (r : Reason) (s : State) : (post r s).pins = s.pins := rfl
@[simp] theorem freeCount_of_post (r : Reason) (s : State) : (post r s).freeCount = s.freeCount := rfl

/-! ### refreshPins -/

@[simp] theorem pending_of_refreshPins (s : State) : (refreshPins s).pending = s.pending := rfl
@[simp] theorem cat_of_refreshPins (s : State) : (refreshPins s).cat = s.cat := rfl
@[simp] theorem blocks_of_refreshPins (s : State) : (refreshPins s).blocks = s.blocks := rfl
@[simp] theorem flash_of_refreshPins (s : State) : (refreshPins s).flash = s.flash := rfl
@[simp] theorem port_of_refreshPins (s : State) : (refreshPins s).port = s.port := rfl
@[simp] theorem wb_of_refreshPins (s : State) : (refreshPins s).wb = s.wb := rfl
@[simp] theorem dl_of_refreshPins (s : State) : (refreshPins s).dl = s.dl := rfl
@[simp] theorem radio_of_refreshPins (s : State) : (refreshPins s).radio = s.radio := rfl
@[simp] theorem pm_of_refreshPins (s : State) : (refreshPins s).pm = s.pm := rfl
@[simp] theorem turn_of_refreshPins (s : State) : (refreshPins s).turn = s.turn := rfl
@[simp] theorem keys_of_refreshPins (s : State) : (refreshPins s).keys = s.keys := rfl
@[simp] theorem panel_of_refreshPins (s : State) : (refreshPins s).panel = s.panel := rfl
@[simp] theorem waveform_of_refreshPins (s : State) : (refreshPins s).waveform = s.waveform := rfl
@[simp] theorem light_of_refreshPins (s : State) : (refreshPins s).light = s.light := rfl
@[simp] theorem power_of_refreshPins (s : State) : (refreshPins s).power = s.power := rfl
@[simp] theorem keep_of_refreshPins (s : State) : (refreshPins s).keep = s.keep := rfl
@[simp] theorem supplies_of_refreshPins (s : State) : (refreshPins s).supplies = s.supplies := rfl
@[simp] theorem faults_of_refreshPins (s : State) : (refreshPins s).faults = s.faults := rfl
@[simp] theorem settings_of_refreshPins (s : State) : (refreshPins s).settings = s.settings := rfl
@[simp] theorem storedSize_of_refreshPins (s : State) : (refreshPins s).storedSize = s.storedSize := rfl
@[simp] theorem settingsGood_of_refreshPins (s : State) : (refreshPins s).settingsGood = s.settingsGood := rfl
@[simp] theorem link_of_refreshPins (s : State) : (refreshPins s).link = s.link := rfl
@[simp] theorem pins_of_refreshPins (s : State) : (refreshPins s).pins = ⟨s.attnCondition, s.rrdyCondition⟩ := rfl
@[simp] theorem freeCount_of_refreshPins (s : State) : (refreshPins s).freeCount = s.freeCount := rfl

/-! ### endFetch -/

@[simp] theorem pending_of_endFetch (s : State) : (endFetch s).pending = s.pending := rfl
@[simp] theorem cat_of_endFetch (s : State) : (endFetch s).cat = s.cat := rfl
@[simp] theorem blocks_of_endFetch (s : State) : (endFetch s).blocks = s.blocks := rfl
@[simp] theorem flash_of_endFetch (s : State) : (endFetch s).flash = s.flash := rfl
@[simp] theorem port_of_endFetch (s : State) : (endFetch s).port = s.port := rfl
@[simp] theorem wb_of_endFetch (s : State) : (endFetch s).wb = s.wb := rfl
@[simp] theorem dl_of_endFetch (s : State) : (endFetch s).dl = s.dl := rfl
@[simp] theorem radio_of_endFetch (s : State) : (endFetch s).radio = s.radio := rfl
@[simp] theorem pm_of_endFetch (s : State) : (endFetch s).pm = s.pm := rfl
@[simp] theorem turn_of_endFetch (s : State) : (endFetch s).turn = s.turn := rfl
@[simp] theorem keys_of_endFetch (s : State) : (endFetch s).keys = s.keys := rfl
@[simp] theorem panel_of_endFetch (s : State) : (endFetch s).panel = s.panel := rfl
@[simp] theorem waveform_of_endFetch (s : State) : (endFetch s).waveform = s.waveform := rfl
@[simp] theorem light_of_endFetch (s : State) : (endFetch s).light = s.light := rfl
@[simp] theorem power_of_endFetch (s : State) : (endFetch s).power = s.power := rfl
@[simp] theorem keep_of_endFetch (s : State) : (endFetch s).keep = s.keep := rfl
@[simp] theorem supplies_of_endFetch (s : State) : (endFetch s).supplies = s.supplies := rfl
@[simp] theorem faults_of_endFetch (s : State) : (endFetch s).faults = s.faults := rfl
@[simp] theorem settings_of_endFetch (s : State) : (endFetch s).settings = s.settings := rfl
@[simp] theorem storedSize_of_endFetch (s : State) : (endFetch s).storedSize = s.storedSize := rfl
@[simp] theorem settingsGood_of_endFetch (s : State) : (endFetch s).settingsGood = s.settingsGood := rfl
@[simp] theorem link_of_endFetch (s : State) : (endFetch s).link = { s.link with fetching := false } := rfl
@[simp] theorem pins_of_endFetch (s : State) : (endFetch s).pins = s.pins := rfl
@[simp] theorem freeCount_of_endFetch (s : State) : (endFetch s).freeCount = s.freeCount := rfl

/-! ### shiftOut -/

@[simp] theorem pending_of_shiftOut (c : Immediate) (tag : Fin 16) (r : Option Reply) (s : State) :
    (shiftOut c tag r s).pending = s.pending := rfl
@[simp] theorem cat_of_shiftOut (c : Immediate) (tag : Fin 16) (r : Option Reply) (s : State) :
    (shiftOut c tag r s).cat = s.cat := rfl
@[simp] theorem blocks_of_shiftOut (c : Immediate) (tag : Fin 16) (r : Option Reply) (s : State) :
    (shiftOut c tag r s).blocks = s.blocks := rfl
@[simp] theorem flash_of_shiftOut (c : Immediate) (tag : Fin 16) (r : Option Reply) (s : State) :
    (shiftOut c tag r s).flash = s.flash := rfl
@[simp] theorem port_of_shiftOut (c : Immediate) (tag : Fin 16) (r : Option Reply) (s : State) :
    (shiftOut c tag r s).port = s.port := rfl
@[simp] theorem wb_of_shiftOut (c : Immediate) (tag : Fin 16) (r : Option Reply) (s : State) :
    (shiftOut c tag r s).wb = s.wb := rfl
@[simp] theorem dl_of_shiftOut (c : Immediate) (tag : Fin 16) (r : Option Reply) (s : State) :
    (shiftOut c tag r s).dl = s.dl := rfl
@[simp] theorem radio_of_shiftOut (c : Immediate) (tag : Fin 16) (r : Option Reply) (s : State) :
    (shiftOut c tag r s).radio = s.radio := rfl
@[simp] theorem pm_of_shiftOut (c : Immediate) (tag : Fin 16) (r : Option Reply) (s : State) :
    (shiftOut c tag r s).pm = s.pm := rfl
@[simp] theorem turn_of_shiftOut (c : Immediate) (tag : Fin 16) (r : Option Reply) (s : State) :
    (shiftOut c tag r s).turn = s.turn := rfl
@[simp] theorem keys_of_shiftOut (c : Immediate) (tag : Fin 16) (r : Option Reply) (s : State) :
    (shiftOut c tag r s).keys = s.keys := rfl
@[simp] theorem panel_of_shiftOut (c : Immediate) (tag : Fin 16) (r : Option Reply) (s : State) :
    (shiftOut c tag r s).panel = s.panel := rfl
@[simp] theorem waveform_of_shiftOut (c : Immediate) (tag : Fin 16) (r : Option Reply) (s : State) :
    (shiftOut c tag r s).waveform = s.waveform := rfl
@[simp] theorem light_of_shiftOut (c : Immediate) (tag : Fin 16) (r : Option Reply) (s : State) :
    (shiftOut c tag r s).light = s.light := rfl
@[simp] theorem power_of_shiftOut (c : Immediate) (tag : Fin 16) (r : Option Reply) (s : State) :
    (shiftOut c tag r s).power = s.power := rfl
@[simp] theorem keep_of_shiftOut (c : Immediate) (tag : Fin 16) (r : Option Reply) (s : State) :
    (shiftOut c tag r s).keep = s.keep := rfl
@[simp] theorem supplies_of_shiftOut (c : Immediate) (tag : Fin 16) (r : Option Reply) (s : State) :
    (shiftOut c tag r s).supplies = s.supplies := rfl
@[simp] theorem faults_of_shiftOut (c : Immediate) (tag : Fin 16) (r : Option Reply) (s : State) :
    (shiftOut c tag r s).faults = s.faults := rfl
@[simp] theorem settings_of_shiftOut (c : Immediate) (tag : Fin 16) (r : Option Reply) (s : State) :
    (shiftOut c tag r s).settings = s.settings := rfl
@[simp] theorem storedSize_of_shiftOut (c : Immediate) (tag : Fin 16) (r : Option Reply) (s : State) :
    (shiftOut c tag r s).storedSize = s.storedSize := rfl
@[simp] theorem settingsGood_of_shiftOut (c : Immediate) (tag : Fin 16) (r : Option Reply) (s : State) :
    (shiftOut c tag r s).settingsGood = s.settingsGood := rfl
@[simp] theorem link_of_shiftOut (c : Immediate) (tag : Fin 16) (r : Option Reply) (s : State) :
    (shiftOut c tag r s).link = { s.link with out := .answer (s.status c tag) r } := rfl
@[simp] theorem pins_of_shiftOut (c : Immediate) (tag : Fin 16) (r : Option Reply) (s : State) :
    (shiftOut c tag r s).pins = s.pins := rfl
@[simp] theorem freeCount_of_shiftOut (c : Immediate) (tag : Fin 16) (r : Option Reply) (s : State) :
    (shiftOut c tag r s).freeCount = s.freeCount := rfl

/-! ### accept -/

@[simp] theorem pending_of_accept (code : RequestCode) (f : Frame) (s : State) :
    (accept code f s).pending = s.pending := rfl
@[simp] theorem cat_of_accept (code : RequestCode) (f : Frame) (s : State) : (accept code f s).cat = s.cat := rfl
@[simp] theorem blocks_of_accept (code : RequestCode) (f : Frame) (s : State) :
    (accept code f s).blocks = s.blocks := rfl
@[simp] theorem flash_of_accept (code : RequestCode) (f : Frame) (s : State) : (accept code f s).flash = s.flash := rfl
@[simp] theorem port_of_accept (code : RequestCode) (f : Frame) (s : State) : (accept code f s).port = s.port := rfl
@[simp] theorem wb_of_accept (code : RequestCode) (f : Frame) (s : State) : (accept code f s).wb = s.wb := rfl
@[simp] theorem dl_of_accept (code : RequestCode) (f : Frame) (s : State) : (accept code f s).dl = s.dl := rfl
@[simp] theorem radio_of_accept (code : RequestCode) (f : Frame) (s : State) : (accept code f s).radio = s.radio := rfl
@[simp] theorem pm_of_accept (code : RequestCode) (f : Frame) (s : State) : (accept code f s).pm = s.pm := rfl
@[simp] theorem turn_of_accept (code : RequestCode) (f : Frame) (s : State) : (accept code f s).turn = s.turn := rfl
@[simp] theorem keys_of_accept (code : RequestCode) (f : Frame) (s : State) : (accept code f s).keys = s.keys := rfl
@[simp] theorem panel_of_accept (code : RequestCode) (f : Frame) (s : State) : (accept code f s).panel = s.panel := rfl
@[simp] theorem waveform_of_accept (code : RequestCode) (f : Frame) (s : State) :
    (accept code f s).waveform = s.waveform := rfl
@[simp] theorem light_of_accept (code : RequestCode) (f : Frame) (s : State) : (accept code f s).light = s.light := rfl
@[simp] theorem power_of_accept (code : RequestCode) (f : Frame) (s : State) : (accept code f s).power = s.power := rfl
@[simp] theorem keep_of_accept (code : RequestCode) (f : Frame) (s : State) : (accept code f s).keep = s.keep := rfl
@[simp] theorem supplies_of_accept (code : RequestCode) (f : Frame) (s : State) :
    (accept code f s).supplies = s.supplies := rfl
@[simp] theorem faults_of_accept (code : RequestCode) (f : Frame) (s : State) :
    (accept code f s).faults = s.faults := rfl
@[simp] theorem settings_of_accept (code : RequestCode) (f : Frame) (s : State) :
    (accept code f s).settings = s.settings := rfl
@[simp] theorem storedSize_of_accept (code : RequestCode) (f : Frame) (s : State) :
    (accept code f s).storedSize = s.storedSize := rfl
@[simp] theorem settingsGood_of_accept (code : RequestCode) (f : Frame) (s : State) :
    (accept code f s).settingsGood = s.settingsGood := rfl
@[simp] theorem link_of_accept (code : RequestCode) (f : Frame) (s : State) :
    (accept code f s).link = { s.link with
      outstanding := s.link.outstanding ++ [⟨s.link.nextId, f.tag, code, false⟩]
      nextId := s.link.nextId + 1 } := rfl
@[simp] theorem pins_of_accept (code : RequestCode) (f : Frame) (s : State) : (accept code f s).pins = s.pins := rfl
@[simp] theorem freeCount_of_accept (code : RequestCode) (f : Frame) (s : State) :
    (accept code f s).freeCount = s.freeCount := rfl

/-! ### placeClaim -/

@[simp] theorem pending_of_placeClaim (o : ClaimOwner) (n : Nat) (s : State) :
    (placeClaim o n s).pending = s.pending := rfl
@[simp] theorem cat_of_placeClaim (o : ClaimOwner) (n : Nat) (s : State) : (placeClaim o n s).cat = s.cat := rfl
@[simp] theorem blocks_of_placeClaim (o : ClaimOwner) (n : Nat) (s : State) :
    (placeClaim o n s).blocks = s.blocks := rfl
@[simp] theorem flash_of_placeClaim (o : ClaimOwner) (n : Nat) (s : State) : (placeClaim o n s).flash = s.flash := rfl
@[simp] theorem port_of_placeClaim (o : ClaimOwner) (n : Nat) (s : State) : (placeClaim o n s).port = s.port := rfl
@[simp] theorem wb_of_placeClaim (o : ClaimOwner) (n : Nat) (s : State) : (placeClaim o n s).wb = s.wb := rfl
@[simp] theorem dl_of_placeClaim (o : ClaimOwner) (n : Nat) (s : State) : (placeClaim o n s).dl = s.dl := rfl
@[simp] theorem radio_of_placeClaim (o : ClaimOwner) (n : Nat) (s : State) : (placeClaim o n s).radio = s.radio := rfl
@[simp] theorem pm_of_placeClaim (o : ClaimOwner) (n : Nat) (s : State) : (placeClaim o n s).pm = s.pm := rfl
@[simp] theorem turn_of_placeClaim (o : ClaimOwner) (n : Nat) (s : State) : (placeClaim o n s).turn = s.turn := rfl
@[simp] theorem keys_of_placeClaim (o : ClaimOwner) (n : Nat) (s : State) : (placeClaim o n s).keys = s.keys := rfl
@[simp] theorem panel_of_placeClaim (o : ClaimOwner) (n : Nat) (s : State) : (placeClaim o n s).panel = s.panel := rfl
@[simp] theorem waveform_of_placeClaim (o : ClaimOwner) (n : Nat) (s : State) :
    (placeClaim o n s).waveform = s.waveform := rfl
@[simp] theorem light_of_placeClaim (o : ClaimOwner) (n : Nat) (s : State) : (placeClaim o n s).light = s.light := rfl
@[simp] theorem power_of_placeClaim (o : ClaimOwner) (n : Nat) (s : State) :
    (placeClaim o n s).power = { s.power with waiting := s.power.waiting ++ [⟨o, n⟩] } := rfl
@[simp] theorem keep_of_placeClaim (o : ClaimOwner) (n : Nat) (s : State) : (placeClaim o n s).keep = s.keep := rfl
@[simp] theorem supplies_of_placeClaim (o : ClaimOwner) (n : Nat) (s : State) :
    (placeClaim o n s).supplies = s.supplies := rfl
@[simp] theorem faults_of_placeClaim (o : ClaimOwner) (n : Nat) (s : State) :
    (placeClaim o n s).faults = s.faults := rfl
@[simp] theorem settings_of_placeClaim (o : ClaimOwner) (n : Nat) (s : State) :
    (placeClaim o n s).settings = s.settings := rfl
@[simp] theorem storedSize_of_placeClaim (o : ClaimOwner) (n : Nat) (s : State) :
    (placeClaim o n s).storedSize = s.storedSize := rfl
@[simp] theorem settingsGood_of_placeClaim (o : ClaimOwner) (n : Nat) (s : State) :
    (placeClaim o n s).settingsGood = s.settingsGood := rfl
@[simp] theorem link_of_placeClaim (o : ClaimOwner) (n : Nat) (s : State) : (placeClaim o n s).link = s.link := rfl
@[simp] theorem pins_of_placeClaim (o : ClaimOwner) (n : Nat) (s : State) : (placeClaim o n s).pins = s.pins := rfl
@[simp] theorem freeCount_of_placeClaim (o : ClaimOwner) (n : Nat) (s : State) :
    (placeClaim o n s).freeCount = s.freeCount := rfl

/-! ### giveBack -/

@[simp] theorem pending_of_giveBack (o : ClaimOwner) (s : State) : (giveBack o s).pending = s.pending := rfl
@[simp] theorem cat_of_giveBack (o : ClaimOwner) (s : State) : (giveBack o s).cat = s.cat := rfl
@[simp] theorem blocks_of_giveBack (o : ClaimOwner) (s : State) : (giveBack o s).blocks = s.blocks := rfl
@[simp] theorem flash_of_giveBack (o : ClaimOwner) (s : State) : (giveBack o s).flash = s.flash := rfl
@[simp] theorem port_of_giveBack (o : ClaimOwner) (s : State) : (giveBack o s).port = s.port := rfl
@[simp] theorem wb_of_giveBack (o : ClaimOwner) (s : State) : (giveBack o s).wb = s.wb := rfl
@[simp] theorem dl_of_giveBack (o : ClaimOwner) (s : State) : (giveBack o s).dl = s.dl := rfl
@[simp] theorem radio_of_giveBack (o : ClaimOwner) (s : State) : (giveBack o s).radio = s.radio := rfl
@[simp] theorem pm_of_giveBack (o : ClaimOwner) (s : State) : (giveBack o s).pm = s.pm := rfl
@[simp] theorem turn_of_giveBack (o : ClaimOwner) (s : State) : (giveBack o s).turn = s.turn := rfl
@[simp] theorem keys_of_giveBack (o : ClaimOwner) (s : State) : (giveBack o s).keys = s.keys := rfl
@[simp] theorem panel_of_giveBack (o : ClaimOwner) (s : State) : (giveBack o s).panel = s.panel := rfl
@[simp] theorem waveform_of_giveBack (o : ClaimOwner) (s : State) : (giveBack o s).waveform = s.waveform := rfl
@[simp] theorem light_of_giveBack (o : ClaimOwner) (s : State) : (giveBack o s).light = s.light := rfl
@[simp] theorem power_of_giveBack (o : ClaimOwner) (s : State) :
    (giveBack o s).power = { s.power with granted := s.power.granted.filter fun c => decide (c.owner ≠ o) } := rfl
@[simp] theorem keep_of_giveBack (o : ClaimOwner) (s : State) : (giveBack o s).keep = s.keep := rfl
@[simp] theorem supplies_of_giveBack (o : ClaimOwner) (s : State) : (giveBack o s).supplies = s.supplies := rfl
@[simp] theorem faults_of_giveBack (o : ClaimOwner) (s : State) : (giveBack o s).faults = s.faults := rfl
@[simp] theorem settings_of_giveBack (o : ClaimOwner) (s : State) : (giveBack o s).settings = s.settings := rfl
@[simp] theorem storedSize_of_giveBack (o : ClaimOwner) (s : State) : (giveBack o s).storedSize = s.storedSize := rfl
@[simp] theorem settingsGood_of_giveBack (o : ClaimOwner) (s : State) :
    (giveBack o s).settingsGood = s.settingsGood := rfl
@[simp] theorem link_of_giveBack (o : ClaimOwner) (s : State) : (giveBack o s).link = s.link := rfl
@[simp] theorem pins_of_giveBack (o : ClaimOwner) (s : State) : (giveBack o s).pins = s.pins := rfl
@[simp] theorem freeCount_of_giveBack (o : ClaimOwner) (s : State) : (giveBack o s).freeCount = s.freeCount := rfl

/-! ### withdrawClaim -/

@[simp] theorem pending_of_withdrawClaim (o : ClaimOwner) (s : State) : (withdrawClaim o s).pending = s.pending := rfl
@[simp] theorem cat_of_withdrawClaim (o : ClaimOwner) (s : State) : (withdrawClaim o s).cat = s.cat := rfl
@[simp] theorem blocks_of_withdrawClaim (o : ClaimOwner) (s : State) : (withdrawClaim o s).blocks = s.blocks := rfl
@[simp] theorem flash_of_withdrawClaim (o : ClaimOwner) (s : State) : (withdrawClaim o s).flash = s.flash := rfl
@[simp] theorem port_of_withdrawClaim (o : ClaimOwner) (s : State) : (withdrawClaim o s).port = s.port := rfl
@[simp] theorem wb_of_withdrawClaim (o : ClaimOwner) (s : State) : (withdrawClaim o s).wb = s.wb := rfl
@[simp] theorem dl_of_withdrawClaim (o : ClaimOwner) (s : State) : (withdrawClaim o s).dl = s.dl := rfl
@[simp] theorem radio_of_withdrawClaim (o : ClaimOwner) (s : State) : (withdrawClaim o s).radio = s.radio := rfl
@[simp] theorem pm_of_withdrawClaim (o : ClaimOwner) (s : State) : (withdrawClaim o s).pm = s.pm := rfl
@[simp] theorem turn_of_withdrawClaim (o : ClaimOwner) (s : State) : (withdrawClaim o s).turn = s.turn := rfl
@[simp] theorem keys_of_withdrawClaim (o : ClaimOwner) (s : State) : (withdrawClaim o s).keys = s.keys := rfl
@[simp] theorem panel_of_withdrawClaim (o : ClaimOwner) (s : State) : (withdrawClaim o s).panel = s.panel := rfl
@[simp] theorem waveform_of_withdrawClaim (o : ClaimOwner) (s : State) :
    (withdrawClaim o s).waveform = s.waveform := rfl
@[simp] theorem light_of_withdrawClaim (o : ClaimOwner) (s : State) : (withdrawClaim o s).light = s.light := rfl
@[simp] theorem power_of_withdrawClaim (o : ClaimOwner) (s : State) :
    (withdrawClaim o s).power = { s.power with waiting := s.power.waiting.filter fun c => decide (c.owner ≠ o) } := rfl
@[simp] theorem keep_of_withdrawClaim (o : ClaimOwner) (s : State) : (withdrawClaim o s).keep = s.keep := rfl
@[simp] theorem supplies_of_withdrawClaim (o : ClaimOwner) (s : State) :
    (withdrawClaim o s).supplies = s.supplies := rfl
@[simp] theorem faults_of_withdrawClaim (o : ClaimOwner) (s : State) : (withdrawClaim o s).faults = s.faults := rfl
@[simp] theorem settings_of_withdrawClaim (o : ClaimOwner) (s : State) :
    (withdrawClaim o s).settings = s.settings := rfl
@[simp] theorem storedSize_of_withdrawClaim (o : ClaimOwner) (s : State) :
    (withdrawClaim o s).storedSize = s.storedSize := rfl
@[simp] theorem settingsGood_of_withdrawClaim (o : ClaimOwner) (s : State) :
    (withdrawClaim o s).settingsGood = s.settingsGood := rfl
@[simp] theorem link_of_withdrawClaim (o : ClaimOwner) (s : State) : (withdrawClaim o s).link = s.link := rfl
@[simp] theorem pins_of_withdrawClaim (o : ClaimOwner) (s : State) : (withdrawClaim o s).pins = s.pins := rfl
@[simp] theorem freeCount_of_withdrawClaim (o : ClaimOwner) (s : State) :
    (withdrawClaim o s).freeCount = s.freeCount := rfl

/-! ### placeOp -/

@[simp] theorem pending_of_placeOp (n : Nat) (held : Bool) (job : FlashJob) (s : State) :
    (placeOp n held job s).pending = s.pending := rfl
@[simp] theorem cat_of_placeOp (n : Nat) (held : Bool) (job : FlashJob) (s : State) :
    (placeOp n held job s).cat = s.cat := rfl
@[simp] theorem blocks_of_placeOp (n : Nat) (held : Bool) (job : FlashJob) (s : State) :
    (placeOp n held job s).blocks = s.blocks := rfl
@[simp] theorem flash_of_placeOp (n : Nat) (held : Bool) (job : FlashJob) (s : State) :
    (placeOp n held job s).flash = s.flash := rfl
@[simp] theorem port_of_placeOp (n : Nat) (held : Bool) (job : FlashJob) (s : State) :
    (placeOp n held job s).port = { s.port with waiting := s.port.waiting ++ [⟨n, held, job⟩] } := rfl
@[simp] theorem wb_of_placeOp (n : Nat) (held : Bool) (job : FlashJob) (s : State) :
    (placeOp n held job s).wb = s.wb := rfl
@[simp] theorem dl_of_placeOp (n : Nat) (held : Bool) (job : FlashJob) (s : State) :
    (placeOp n held job s).dl = s.dl := rfl
@[simp] theorem radio_of_placeOp (n : Nat) (held : Bool) (job : FlashJob) (s : State) :
    (placeOp n held job s).radio = s.radio := rfl
@[simp] theorem pm_of_placeOp (n : Nat) (held : Bool) (job : FlashJob) (s : State) :
    (placeOp n held job s).pm = s.pm := rfl
@[simp] theorem turn_of_placeOp (n : Nat) (held : Bool) (job : FlashJob) (s : State) :
    (placeOp n held job s).turn = s.turn := rfl
@[simp] theorem keys_of_placeOp (n : Nat) (held : Bool) (job : FlashJob) (s : State) :
    (placeOp n held job s).keys = s.keys := rfl
@[simp] theorem panel_of_placeOp (n : Nat) (held : Bool) (job : FlashJob) (s : State) :
    (placeOp n held job s).panel = s.panel := rfl
@[simp] theorem waveform_of_placeOp (n : Nat) (held : Bool) (job : FlashJob) (s : State) :
    (placeOp n held job s).waveform = s.waveform := rfl
@[simp] theorem light_of_placeOp (n : Nat) (held : Bool) (job : FlashJob) (s : State) :
    (placeOp n held job s).light = s.light := rfl
@[simp] theorem power_of_placeOp (n : Nat) (held : Bool) (job : FlashJob) (s : State) :
    (placeOp n held job s).power = s.power := rfl
@[simp] theorem keep_of_placeOp (n : Nat) (held : Bool) (job : FlashJob) (s : State) :
    (placeOp n held job s).keep = s.keep := rfl
@[simp] theorem supplies_of_placeOp (n : Nat) (held : Bool) (job : FlashJob) (s : State) :
    (placeOp n held job s).supplies = s.supplies := rfl
@[simp] theorem faults_of_placeOp (n : Nat) (held : Bool) (job : FlashJob) (s : State) :
    (placeOp n held job s).faults = s.faults := rfl
@[simp] theorem settings_of_placeOp (n : Nat) (held : Bool) (job : FlashJob) (s : State) :
    (placeOp n held job s).settings = s.settings := rfl
@[simp] theorem storedSize_of_placeOp (n : Nat) (held : Bool) (job : FlashJob) (s : State) :
    (placeOp n held job s).storedSize = s.storedSize := rfl
@[simp] theorem settingsGood_of_placeOp (n : Nat) (held : Bool) (job : FlashJob) (s : State) :
    (placeOp n held job s).settingsGood = s.settingsGood := rfl
@[simp] theorem link_of_placeOp (n : Nat) (held : Bool) (job : FlashJob) (s : State) :
    (placeOp n held job s).link = s.link := rfl
@[simp] theorem pins_of_placeOp (n : Nat) (held : Bool) (job : FlashJob) (s : State) :
    (placeOp n held job s).pins = s.pins := rfl
@[simp] theorem freeCount_of_placeOp (n : Nat) (held : Bool) (job : FlashJob) (s : State) :
    (placeOp n held job s).freeCount = s.freeCount := rfl

/-! ### withdrawOps -/

@[simp] theorem pending_of_withdrawOps (which : FlashJob → Bool) (s : State) :
    (withdrawOps which s).pending = s.pending := rfl
@[simp] theorem cat_of_withdrawOps (which : FlashJob → Bool) (s : State) : (withdrawOps which s).cat = s.cat := rfl
@[simp] theorem blocks_of_withdrawOps (which : FlashJob → Bool) (s : State) :
    (withdrawOps which s).blocks = s.blocks := rfl
@[simp] theorem flash_of_withdrawOps (which : FlashJob → Bool) (s : State) :
    (withdrawOps which s).flash = s.flash := rfl
@[simp] theorem port_of_withdrawOps (which : FlashJob → Bool) (s : State) :
    (withdrawOps which s).port = { s.port with waiting := s.port.waiting.filter fun op => !which op.job } := rfl
@[simp] theorem wb_of_withdrawOps (which : FlashJob → Bool) (s : State) : (withdrawOps which s).wb = s.wb := rfl
@[simp] theorem dl_of_withdrawOps (which : FlashJob → Bool) (s : State) : (withdrawOps which s).dl = s.dl := rfl
@[simp] theorem radio_of_withdrawOps (which : FlashJob → Bool) (s : State) :
    (withdrawOps which s).radio = s.radio := rfl
@[simp] theorem pm_of_withdrawOps (which : FlashJob → Bool) (s : State) : (withdrawOps which s).pm = s.pm := rfl
@[simp] theorem turn_of_withdrawOps (which : FlashJob → Bool) (s : State) : (withdrawOps which s).turn = s.turn := rfl
@[simp] theorem keys_of_withdrawOps (which : FlashJob → Bool) (s : State) : (withdrawOps which s).keys = s.keys := rfl
@[simp] theorem panel_of_withdrawOps (which : FlashJob → Bool) (s : State) :
    (withdrawOps which s).panel = s.panel := rfl
@[simp] theorem waveform_of_withdrawOps (which : FlashJob → Bool) (s : State) :
    (withdrawOps which s).waveform = s.waveform := rfl
@[simp] theorem light_of_withdrawOps (which : FlashJob → Bool) (s : State) :
    (withdrawOps which s).light = s.light := rfl
@[simp] theorem power_of_withdrawOps (which : FlashJob → Bool) (s : State) :
    (withdrawOps which s).power = s.power := rfl
@[simp] theorem keep_of_withdrawOps (which : FlashJob → Bool) (s : State) : (withdrawOps which s).keep = s.keep := rfl
@[simp] theorem supplies_of_withdrawOps (which : FlashJob → Bool) (s : State) :
    (withdrawOps which s).supplies = s.supplies := rfl
@[simp] theorem faults_of_withdrawOps (which : FlashJob → Bool) (s : State) :
    (withdrawOps which s).faults = s.faults := rfl
@[simp] theorem settings_of_withdrawOps (which : FlashJob → Bool) (s : State) :
    (withdrawOps which s).settings = s.settings := rfl
@[simp] theorem storedSize_of_withdrawOps (which : FlashJob → Bool) (s : State) :
    (withdrawOps which s).storedSize = s.storedSize := rfl
@[simp] theorem settingsGood_of_withdrawOps (which : FlashJob → Bool) (s : State) :
    (withdrawOps which s).settingsGood = s.settingsGood := rfl
@[simp] theorem link_of_withdrawOps (which : FlashJob → Bool) (s : State) : (withdrawOps which s).link = s.link := rfl
@[simp] theorem pins_of_withdrawOps (which : FlashJob → Bool) (s : State) : (withdrawOps which s).pins = s.pins := rfl
@[simp] theorem freeCount_of_withdrawOps (which : FlashJob → Bool) (s : State) :
    (withdrawOps which s).freeCount = s.freeCount := rfl

/-! ### endOperation -/

@[simp] theorem pending_of_endOperation (s : State) : (endOperation s).pending = s.pending := rfl
@[simp] theorem cat_of_endOperation (s : State) : (endOperation s).cat = s.cat := rfl
@[simp] theorem blocks_of_endOperation (s : State) : (endOperation s).blocks = s.blocks := rfl
@[simp] theorem flash_of_endOperation (s : State) : (endOperation s).flash = s.flash := rfl
@[simp] theorem port_of_endOperation (s : State) : (endOperation s).port = { s.port with phase := .idle } := rfl
@[simp] theorem wb_of_endOperation (s : State) : (endOperation s).wb = s.wb := rfl
@[simp] theorem dl_of_endOperation (s : State) : (endOperation s).dl = s.dl := rfl
@[simp] theorem radio_of_endOperation (s : State) : (endOperation s).radio = s.radio := rfl
@[simp] theorem pm_of_endOperation (s : State) : (endOperation s).pm = s.pm := rfl
@[simp] theorem turn_of_endOperation (s : State) : (endOperation s).turn = s.turn := rfl
@[simp] theorem keys_of_endOperation (s : State) : (endOperation s).keys = s.keys := rfl
@[simp] theorem panel_of_endOperation (s : State) : (endOperation s).panel = s.panel := rfl
@[simp] theorem waveform_of_endOperation (s : State) : (endOperation s).waveform = s.waveform := rfl
@[simp] theorem light_of_endOperation (s : State) : (endOperation s).light = s.light := rfl
@[simp] theorem power_of_endOperation (s : State) :
    (endOperation s).power = { s.power with granted := s.power.granted.filter fun c => decide (c.owner ≠ .port) } := rfl
@[simp] theorem keep_of_endOperation (s : State) : (endOperation s).keep = s.keep := rfl
@[simp] theorem supplies_of_endOperation (s : State) : (endOperation s).supplies = s.supplies := rfl
@[simp] theorem faults_of_endOperation (s : State) : (endOperation s).faults = s.faults := rfl
@[simp] theorem settings_of_endOperation (s : State) : (endOperation s).settings = s.settings := rfl
@[simp] theorem storedSize_of_endOperation (s : State) : (endOperation s).storedSize = s.storedSize := rfl
@[simp] theorem settingsGood_of_endOperation (s : State) : (endOperation s).settingsGood = s.settingsGood := rfl
@[simp] theorem link_of_endOperation (s : State) : (endOperation s).link = s.link := rfl
@[simp] theorem pins_of_endOperation (s : State) : (endOperation s).pins = s.pins := rfl
@[simp] theorem freeCount_of_endOperation (s : State) : (endOperation s).freeCount = s.freeCount := rfl

/-! ### setSlot -/

@[simp] theorem pending_of_setSlot (i : Fin 28) (p : PageSlot) (s : State) : (setSlot i p s).pending = s.pending := rfl
@[simp] theorem cat_of_setSlot (i : Fin 28) (p : PageSlot) (s : State) : (setSlot i p s).cat = s.cat := rfl
@[simp] theorem blocks_of_setSlot (i : Fin 28) (p : PageSlot) (s : State) : (setSlot i p s).blocks = s.blocks := rfl
@[simp] theorem flash_of_setSlot (i : Fin 28) (p : PageSlot) (s : State) : (setSlot i p s).flash = s.flash := rfl
@[simp] theorem port_of_setSlot (i : Fin 28) (p : PageSlot) (s : State) : (setSlot i p s).port = s.port := rfl
@[simp] theorem wb_of_setSlot (i : Fin 28) (p : PageSlot) (s : State) : (setSlot i p s).wb = s.wb := rfl
@[simp] theorem dl_of_setSlot (i : Fin 28) (p : PageSlot) (s : State) : (setSlot i p s).dl = s.dl := rfl
@[simp] theorem radio_of_setSlot (i : Fin 28) (p : PageSlot) (s : State) : (setSlot i p s).radio = s.radio := rfl
@[simp] theorem pm_of_setSlot (i : Fin 28) (p : PageSlot) (s : State) :
    (setSlot i p s).pm = { s.pm with slots := s.pm.slots.set i p } := rfl
@[simp] theorem turn_of_setSlot (i : Fin 28) (p : PageSlot) (s : State) : (setSlot i p s).turn = s.turn := rfl
@[simp] theorem keys_of_setSlot (i : Fin 28) (p : PageSlot) (s : State) : (setSlot i p s).keys = s.keys := rfl
@[simp] theorem panel_of_setSlot (i : Fin 28) (p : PageSlot) (s : State) : (setSlot i p s).panel = s.panel := rfl
@[simp] theorem waveform_of_setSlot (i : Fin 28) (p : PageSlot) (s : State) :
    (setSlot i p s).waveform = s.waveform := rfl
@[simp] theorem light_of_setSlot (i : Fin 28) (p : PageSlot) (s : State) : (setSlot i p s).light = s.light := rfl
@[simp] theorem power_of_setSlot (i : Fin 28) (p : PageSlot) (s : State) : (setSlot i p s).power = s.power := rfl
@[simp] theorem keep_of_setSlot (i : Fin 28) (p : PageSlot) (s : State) : (setSlot i p s).keep = s.keep := rfl
@[simp] theorem supplies_of_setSlot (i : Fin 28) (p : PageSlot) (s : State) :
    (setSlot i p s).supplies = s.supplies := rfl
@[simp] theorem faults_of_setSlot (i : Fin 28) (p : PageSlot) (s : State) : (setSlot i p s).faults = s.faults := rfl
@[simp] theorem settings_of_setSlot (i : Fin 28) (p : PageSlot) (s : State) :
    (setSlot i p s).settings = s.settings := rfl
@[simp] theorem storedSize_of_setSlot (i : Fin 28) (p : PageSlot) (s : State) :
    (setSlot i p s).storedSize = s.storedSize := rfl
@[simp] theorem settingsGood_of_setSlot (i : Fin 28) (p : PageSlot) (s : State) :
    (setSlot i p s).settingsGood = s.settingsGood := rfl
@[simp] theorem link_of_setSlot (i : Fin 28) (p : PageSlot) (s : State) : (setSlot i p s).link = s.link := rfl
@[simp] theorem pins_of_setSlot (i : Fin 28) (p : PageSlot) (s : State) : (setSlot i p s).pins = s.pins := rfl
@[simp] theorem freeCount_of_setSlot (i : Fin 28) (p : PageSlot) (s : State) :
    (setSlot i p s).freeCount = s.freeCount := rfl

/-! ### setLane -/

@[simp] theorem pending_of_setLane (i : Fin 4) (l : Lane) (s : State) : (setLane i l s).pending = s.pending := rfl
@[simp] theorem cat_of_setLane (i : Fin 4) (l : Lane) (s : State) : (setLane i l s).cat = s.cat := rfl
@[simp] theorem blocks_of_setLane (i : Fin 4) (l : Lane) (s : State) : (setLane i l s).blocks = s.blocks := rfl
@[simp] theorem flash_of_setLane (i : Fin 4) (l : Lane) (s : State) : (setLane i l s).flash = s.flash := rfl
@[simp] theorem port_of_setLane (i : Fin 4) (l : Lane) (s : State) : (setLane i l s).port = s.port := rfl
@[simp] theorem wb_of_setLane (i : Fin 4) (l : Lane) (s : State) : (setLane i l s).wb = s.wb := rfl
@[simp] theorem dl_of_setLane (i : Fin 4) (l : Lane) (s : State) : (setLane i l s).dl = s.dl := rfl
@[simp] theorem radio_of_setLane (i : Fin 4) (l : Lane) (s : State) : (setLane i l s).radio = s.radio := rfl
@[simp] theorem pm_of_setLane (i : Fin 4) (l : Lane) (s : State) : (setLane i l s).pm = s.pm := rfl
@[simp] theorem turn_of_setLane (i : Fin 4) (l : Lane) (s : State) : (setLane i l s).turn = s.turn := rfl
@[simp] theorem keys_of_setLane (i : Fin 4) (l : Lane) (s : State) : (setLane i l s).keys = s.keys := rfl
@[simp] theorem panel_of_setLane (i : Fin 4) (l : Lane) (s : State) :
    (setLane i l s).panel = { s.panel with lanes := s.panel.lanes.set i l } := rfl
@[simp] theorem waveform_of_setLane (i : Fin 4) (l : Lane) (s : State) : (setLane i l s).waveform = s.waveform := rfl
@[simp] theorem light_of_setLane (i : Fin 4) (l : Lane) (s : State) : (setLane i l s).light = s.light := rfl
@[simp] theorem power_of_setLane (i : Fin 4) (l : Lane) (s : State) : (setLane i l s).power = s.power := rfl
@[simp] theorem keep_of_setLane (i : Fin 4) (l : Lane) (s : State) : (setLane i l s).keep = s.keep := rfl
@[simp] theorem supplies_of_setLane (i : Fin 4) (l : Lane) (s : State) : (setLane i l s).supplies = s.supplies := rfl
@[simp] theorem faults_of_setLane (i : Fin 4) (l : Lane) (s : State) : (setLane i l s).faults = s.faults := rfl
@[simp] theorem settings_of_setLane (i : Fin 4) (l : Lane) (s : State) : (setLane i l s).settings = s.settings := rfl
@[simp] theorem storedSize_of_setLane (i : Fin 4) (l : Lane) (s : State) :
    (setLane i l s).storedSize = s.storedSize := rfl
@[simp] theorem settingsGood_of_setLane (i : Fin 4) (l : Lane) (s : State) :
    (setLane i l s).settingsGood = s.settingsGood := rfl
@[simp] theorem link_of_setLane (i : Fin 4) (l : Lane) (s : State) : (setLane i l s).link = s.link := rfl
@[simp] theorem pins_of_setLane (i : Fin 4) (l : Lane) (s : State) : (setLane i l s).pins = s.pins := rfl
@[simp] theorem freeCount_of_setLane (i : Fin 4) (l : Lane) (s : State) : (setLane i l s).freeCount = s.freeCount := rfl

/-! ### setTransfer -/

@[simp] theorem pending_of_setTransfer (i : Fin 4) (x : TransferSlot) (s : State) :
    (setTransfer i x s).pending = s.pending := rfl
@[simp] theorem cat_of_setTransfer (i : Fin 4) (x : TransferSlot) (s : State) : (setTransfer i x s).cat = s.cat := rfl
@[simp] theorem blocks_of_setTransfer (i : Fin 4) (x : TransferSlot) (s : State) :
    (setTransfer i x s).blocks = s.blocks := rfl
@[simp] theorem flash_of_setTransfer (i : Fin 4) (x : TransferSlot) (s : State) :
    (setTransfer i x s).flash = s.flash := rfl
@[simp] theorem port_of_setTransfer (i : Fin 4) (x : TransferSlot) (s : State) :
    (setTransfer i x s).port = s.port := rfl
@[simp] theorem wb_of_setTransfer (i : Fin 4) (x : TransferSlot) (s : State) : (setTransfer i x s).wb = s.wb := rfl
@[simp] theorem dl_of_setTransfer (i : Fin 4) (x : TransferSlot) (s : State) :
    (setTransfer i x s).dl = { s.dl with slots := s.dl.slots.set i x } := rfl
@[simp] theorem radio_of_setTransfer (i : Fin 4) (x : TransferSlot) (s : State) :
    (setTransfer i x s).radio = s.radio := rfl
@[simp] theorem pm_of_setTransfer (i : Fin 4) (x : TransferSlot) (s : State) : (setTransfer i x s).pm = s.pm := rfl
@[simp] theorem turn_of_setTransfer (i : Fin 4) (x : TransferSlot) (s : State) :
    (setTransfer i x s).turn = s.turn := rfl
@[simp] theorem keys_of_setTransfer (i : Fin 4) (x : TransferSlot) (s : State) :
    (setTransfer i x s).keys = s.keys := rfl
@[simp] theorem panel_of_setTransfer (i : Fin 4) (x : TransferSlot) (s : State) :
    (setTransfer i x s).panel = s.panel := rfl
@[simp] theorem waveform_of_setTransfer (i : Fin 4) (x : TransferSlot) (s : State) :
    (setTransfer i x s).waveform = s.waveform := rfl
@[simp] theorem light_of_setTransfer (i : Fin 4) (x : TransferSlot) (s : State) :
    (setTransfer i x s).light = s.light := rfl
@[simp] theorem power_of_setTransfer (i : Fin 4) (x : TransferSlot) (s : State) :
    (setTransfer i x s).power = s.power := rfl
@[simp] theorem keep_of_setTransfer (i : Fin 4) (x : TransferSlot) (s : State) :
    (setTransfer i x s).keep = s.keep := rfl
@[simp] theorem supplies_of_setTransfer (i : Fin 4) (x : TransferSlot) (s : State) :
    (setTransfer i x s).supplies = s.supplies := rfl
@[simp] theorem faults_of_setTransfer (i : Fin 4) (x : TransferSlot) (s : State) :
    (setTransfer i x s).faults = s.faults := rfl
@[simp] theorem settings_of_setTransfer (i : Fin 4) (x : TransferSlot) (s : State) :
    (setTransfer i x s).settings = s.settings := rfl
@[simp] theorem storedSize_of_setTransfer (i : Fin 4) (x : TransferSlot) (s : State) :
    (setTransfer i x s).storedSize = s.storedSize := rfl
@[simp] theorem settingsGood_of_setTransfer (i : Fin 4) (x : TransferSlot) (s : State) :
    (setTransfer i x s).settingsGood = s.settingsGood := rfl
@[simp] theorem link_of_setTransfer (i : Fin 4) (x : TransferSlot) (s : State) :
    (setTransfer i x s).link = s.link := rfl
@[simp] theorem pins_of_setTransfer (i : Fin 4) (x : TransferSlot) (s : State) :
    (setTransfer i x s).pins = s.pins := rfl
@[simp] theorem freeCount_of_setTransfer (i : Fin 4) (x : TransferSlot) (s : State) :
    (setTransfer i x s).freeCount = s.freeCount := rfl

/-! ### setBuffer -/

@[simp] theorem pending_of_setBuffer (i : Fin 4) (b : Option Segment) (s : State) :
    (setBuffer i b s).pending = s.pending := rfl
@[simp] theorem cat_of_setBuffer (i : Fin 4) (b : Option Segment) (s : State) : (setBuffer i b s).cat = s.cat := rfl
@[simp] theorem blocks_of_setBuffer (i : Fin 4) (b : Option Segment) (s : State) :
    (setBuffer i b s).blocks = s.blocks := rfl
@[simp] theorem flash_of_setBuffer (i : Fin 4) (b : Option Segment) (s : State) :
    (setBuffer i b s).flash = s.flash := rfl
@[simp] theorem port_of_setBuffer (i : Fin 4) (b : Option Segment) (s : State) : (setBuffer i b s).port = s.port := rfl
@[simp] theorem wb_of_setBuffer (i : Fin 4) (b : Option Segment) (s : State) : (setBuffer i b s).wb = s.wb := rfl
@[simp] theorem dl_of_setBuffer (i : Fin 4) (b : Option Segment) (s : State) :
    (setBuffer i b s).dl = { s.dl with buffers := s.dl.buffers.set i b } := rfl
@[simp] theorem radio_of_setBuffer (i : Fin 4) (b : Option Segment) (s : State) :
    (setBuffer i b s).radio = s.radio := rfl
@[simp] theorem pm_of_setBuffer (i : Fin 4) (b : Option Segment) (s : State) : (setBuffer i b s).pm = s.pm := rfl
@[simp] theorem turn_of_setBuffer (i : Fin 4) (b : Option Segment) (s : State) : (setBuffer i b s).turn = s.turn := rfl
@[simp] theorem keys_of_setBuffer (i : Fin 4) (b : Option Segment) (s : State) : (setBuffer i b s).keys = s.keys := rfl
@[simp] theorem panel_of_setBuffer (i : Fin 4) (b : Option Segment) (s : State) :
    (setBuffer i b s).panel = s.panel := rfl
@[simp] theorem waveform_of_setBuffer (i : Fin 4) (b : Option Segment) (s : State) :
    (setBuffer i b s).waveform = s.waveform := rfl
@[simp] theorem light_of_setBuffer (i : Fin 4) (b : Option Segment) (s : State) :
    (setBuffer i b s).light = s.light := rfl
@[simp] theorem power_of_setBuffer (i : Fin 4) (b : Option Segment) (s : State) :
    (setBuffer i b s).power = s.power := rfl
@[simp] theorem keep_of_setBuffer (i : Fin 4) (b : Option Segment) (s : State) : (setBuffer i b s).keep = s.keep := rfl
@[simp] theorem supplies_of_setBuffer (i : Fin 4) (b : Option Segment) (s : State) :
    (setBuffer i b s).supplies = s.supplies := rfl
@[simp] theorem faults_of_setBuffer (i : Fin 4) (b : Option Segment) (s : State) :
    (setBuffer i b s).faults = s.faults := rfl
@[simp] theorem settings_of_setBuffer (i : Fin 4) (b : Option Segment) (s : State) :
    (setBuffer i b s).settings = s.settings := rfl
@[simp] theorem storedSize_of_setBuffer (i : Fin 4) (b : Option Segment) (s : State) :
    (setBuffer i b s).storedSize = s.storedSize := rfl
@[simp] theorem settingsGood_of_setBuffer (i : Fin 4) (b : Option Segment) (s : State) :
    (setBuffer i b s).settingsGood = s.settingsGood := rfl
@[simp] theorem link_of_setBuffer (i : Fin 4) (b : Option Segment) (s : State) : (setBuffer i b s).link = s.link := rfl
@[simp] theorem pins_of_setBuffer (i : Fin 4) (b : Option Segment) (s : State) : (setBuffer i b s).pins = s.pins := rfl
@[simp] theorem freeCount_of_setBuffer (i : Fin 4) (b : Option Segment) (s : State) :
    (setBuffer i b s).freeCount = s.freeCount := rfl

/-! ### endTurnBoost -/

@[simp] theorem pending_of_endTurnBoost (s : State) : (endTurnBoost s).pending = s.pending := rfl
@[simp] theorem cat_of_endTurnBoost (s : State) : (endTurnBoost s).cat = s.cat := rfl
@[simp] theorem blocks_of_endTurnBoost (s : State) : (endTurnBoost s).blocks = s.blocks := rfl
@[simp] theorem flash_of_endTurnBoost (s : State) : (endTurnBoost s).flash = s.flash := rfl
@[simp] theorem port_of_endTurnBoost (s : State) : (endTurnBoost s).port = s.port := rfl
@[simp] theorem wb_of_endTurnBoost (s : State) : (endTurnBoost s).wb = s.wb := rfl
@[simp] theorem dl_of_endTurnBoost (s : State) : (endTurnBoost s).dl = s.dl := rfl
@[simp] theorem radio_of_endTurnBoost (s : State) : (endTurnBoost s).radio = s.radio := rfl
@[simp] theorem pm_of_endTurnBoost (s : State) : (endTurnBoost s).pm = s.pm := rfl
@[simp] theorem turn_of_endTurnBoost (s : State) : (endTurnBoost s).turn = s.turn := rfl
@[simp] theorem keys_of_endTurnBoost (s : State) : (endTurnBoost s).keys = s.keys := rfl
@[simp] theorem panel_of_endTurnBoost (s : State) : (endTurnBoost s).panel = s.panel := rfl
@[simp] theorem waveform_of_endTurnBoost (s : State) : (endTurnBoost s).waveform = s.waveform := rfl
@[simp] theorem light_of_endTurnBoost (s : State) : (endTurnBoost s).light = s.light := rfl
@[simp] theorem power_of_endTurnBoost (s : State) : (endTurnBoost s).power = { s.power with turnBoost := false } := rfl
@[simp] theorem keep_of_endTurnBoost (s : State) : (endTurnBoost s).keep = s.keep := rfl
@[simp] theorem supplies_of_endTurnBoost (s : State) : (endTurnBoost s).supplies = s.supplies := rfl
@[simp] theorem faults_of_endTurnBoost (s : State) : (endTurnBoost s).faults = s.faults := rfl
@[simp] theorem settings_of_endTurnBoost (s : State) : (endTurnBoost s).settings = s.settings := rfl
@[simp] theorem storedSize_of_endTurnBoost (s : State) : (endTurnBoost s).storedSize = s.storedSize := rfl
@[simp] theorem settingsGood_of_endTurnBoost (s : State) : (endTurnBoost s).settingsGood = s.settingsGood := rfl
@[simp] theorem link_of_endTurnBoost (s : State) : (endTurnBoost s).link = s.link := rfl
@[simp] theorem pins_of_endTurnBoost (s : State) : (endTurnBoost s).pins = s.pins := rfl
@[simp] theorem freeCount_of_endTurnBoost (s : State) : (endTurnBoost s).freeCount = s.freeCount := rfl

/-! ### withdrawAdmission -/

@[simp] theorem pending_of_withdrawAdmission (s : State) : (withdrawAdmission s).pending = s.pending := rfl
@[simp] theorem cat_of_withdrawAdmission (s : State) : (withdrawAdmission s).cat = s.cat := rfl
@[simp] theorem blocks_of_withdrawAdmission (s : State) : (withdrawAdmission s).blocks = s.blocks := rfl
@[simp] theorem flash_of_withdrawAdmission (s : State) : (withdrawAdmission s).flash = s.flash := rfl
@[simp] theorem port_of_withdrawAdmission (s : State) : (withdrawAdmission s).port = s.port := rfl
@[simp] theorem wb_of_withdrawAdmission (s : State) : (withdrawAdmission s).wb = s.wb := rfl
@[simp] theorem dl_of_withdrawAdmission (s : State) : (withdrawAdmission s).dl = s.dl := rfl
@[simp] theorem radio_of_withdrawAdmission (s : State) : (withdrawAdmission s).radio = s.radio := rfl
@[simp] theorem pm_of_withdrawAdmission (s : State) : (withdrawAdmission s).pm = s.pm := rfl
@[simp] theorem turn_of_withdrawAdmission (s : State) : (withdrawAdmission s).turn = s.turn := rfl
@[simp] theorem keys_of_withdrawAdmission (s : State) : (withdrawAdmission s).keys = s.keys := rfl
@[simp] theorem panel_of_withdrawAdmission (s : State) :
    (withdrawAdmission s).panel = { s.panel with queue := s.panel.queue.map fun e => { e with admission := none } } := rfl
@[simp] theorem waveform_of_withdrawAdmission (s : State) : (withdrawAdmission s).waveform = s.waveform := rfl
@[simp] theorem light_of_withdrawAdmission (s : State) : (withdrawAdmission s).light = s.light := rfl
@[simp] theorem power_of_withdrawAdmission (s : State) :
    (withdrawAdmission s).power = { s.power with waiting := s.power.waiting.filter fun c => decide (c.owner ≠ .admission) } := rfl
@[simp] theorem keep_of_withdrawAdmission (s : State) : (withdrawAdmission s).keep = s.keep := rfl
@[simp] theorem supplies_of_withdrawAdmission (s : State) : (withdrawAdmission s).supplies = s.supplies := rfl
@[simp] theorem faults_of_withdrawAdmission (s : State) : (withdrawAdmission s).faults = s.faults := rfl
@[simp] theorem settings_of_withdrawAdmission (s : State) : (withdrawAdmission s).settings = s.settings := rfl
@[simp] theorem storedSize_of_withdrawAdmission (s : State) : (withdrawAdmission s).storedSize = s.storedSize := rfl
@[simp] theorem settingsGood_of_withdrawAdmission (s : State) :
    (withdrawAdmission s).settingsGood = s.settingsGood := rfl
@[simp] theorem link_of_withdrawAdmission (s : State) : (withdrawAdmission s).link = s.link := rfl
@[simp] theorem pins_of_withdrawAdmission (s : State) : (withdrawAdmission s).pins = s.pins := rfl
@[simp] theorem freeCount_of_withdrawAdmission (s : State) : (withdrawAdmission s).freeCount = s.freeCount := rfl

/-! ### setRecord -/

@[simp] theorem pending_of_setRecord (h : Nat) (r : TitleRecord) (s : State) : (setRecord h r s).pending = s.pending := by
  unfold setRecord; split <;> rfl
@[simp] theorem blocks_of_setRecord (h : Nat) (r : TitleRecord) (s : State) : (setRecord h r s).blocks = s.blocks := by
  unfold setRecord; split <;> rfl
@[simp] theorem flash_of_setRecord (h : Nat) (r : TitleRecord) (s : State) : (setRecord h r s).flash = s.flash := by
  unfold setRecord; split <;> rfl
@[simp] theorem port_of_setRecord (h : Nat) (r : TitleRecord) (s : State) : (setRecord h r s).port = s.port := by
  unfold setRecord; split <;> rfl
@[simp] theorem wb_of_setRecord (h : Nat) (r : TitleRecord) (s : State) : (setRecord h r s).wb = s.wb := by
  unfold setRecord; split <;> rfl
@[simp] theorem dl_of_setRecord (h : Nat) (r : TitleRecord) (s : State) : (setRecord h r s).dl = s.dl := by
  unfold setRecord; split <;> rfl
@[simp] theorem radio_of_setRecord (h : Nat) (r : TitleRecord) (s : State) : (setRecord h r s).radio = s.radio := by
  unfold setRecord; split <;> rfl
@[simp] theorem pm_of_setRecord (h : Nat) (r : TitleRecord) (s : State) : (setRecord h r s).pm = s.pm := by
  unfold setRecord; split <;> rfl
@[simp] theorem turn_of_setRecord (h : Nat) (r : TitleRecord) (s : State) : (setRecord h r s).turn = s.turn := by
  unfold setRecord; split <;> rfl
@[simp] theorem keys_of_setRecord (h : Nat) (r : TitleRecord) (s : State) : (setRecord h r s).keys = s.keys := by
  unfold setRecord; split <;> rfl
@[simp] theorem panel_of_setRecord (h : Nat) (r : TitleRecord) (s : State) : (setRecord h r s).panel = s.panel := by
  unfold setRecord; split <;> rfl
@[simp] theorem waveform_of_setRecord (h : Nat) (r : TitleRecord) (s : State) : (setRecord h r s).waveform = s.waveform := by
  unfold setRecord; split <;> rfl
@[simp] theorem light_of_setRecord (h : Nat) (r : TitleRecord) (s : State) : (setRecord h r s).light = s.light := by
  unfold setRecord; split <;> rfl
@[simp] theorem power_of_setRecord (h : Nat) (r : TitleRecord) (s : State) : (setRecord h r s).power = s.power := by
  unfold setRecord; split <;> rfl
@[simp] theorem keep_of_setRecord (h : Nat) (r : TitleRecord) (s : State) : (setRecord h r s).keep = s.keep := by
  unfold setRecord; split <;> rfl
@[simp] theorem supplies_of_setRecord (h : Nat) (r : TitleRecord) (s : State) : (setRecord h r s).supplies = s.supplies := by
  unfold setRecord; split <;> rfl
@[simp] theorem faults_of_setRecord (h : Nat) (r : TitleRecord) (s : State) : (setRecord h r s).faults = s.faults := by
  unfold setRecord; split <;> rfl
@[simp] theorem settings_of_setRecord (h : Nat) (r : TitleRecord) (s : State) : (setRecord h r s).settings = s.settings := by
  unfold setRecord; split <;> rfl
@[simp] theorem storedSize_of_setRecord (h : Nat) (r : TitleRecord) (s : State) : (setRecord h r s).storedSize = s.storedSize := by
  unfold setRecord; split <;> rfl
@[simp] theorem settingsGood_of_setRecord (h : Nat) (r : TitleRecord) (s : State) : (setRecord h r s).settingsGood = s.settingsGood := by
  unfold setRecord; split <;> rfl
@[simp] theorem link_of_setRecord (h : Nat) (r : TitleRecord) (s : State) : (setRecord h r s).link = s.link := by
  unfold setRecord; split <;> rfl
@[simp] theorem pins_of_setRecord (h : Nat) (r : TitleRecord) (s : State) : (setRecord h r s).pins = s.pins := by
  unfold setRecord; split <;> rfl
@[simp] theorem freeCount_of_setRecord (h : Nat) (r : TitleRecord) (s : State) : (setRecord h r s).freeCount = s.freeCount := by
  unfold setRecord; split <;> rfl

/-! ### answer -/

@[simp] theorem pending_of_answer (id : Nat) (r : Result) (b : List Byte) (s : State) : (answer id r b s).pending = s.pending := by
  unfold answer; split <;> rfl
@[simp] theorem cat_of_answer (id : Nat) (r : Result) (b : List Byte) (s : State) : (answer id r b s).cat = s.cat := by
  unfold answer; split <;> rfl
@[simp] theorem blocks_of_answer (id : Nat) (r : Result) (b : List Byte) (s : State) : (answer id r b s).blocks = s.blocks := by
  unfold answer; split <;> rfl
@[simp] theorem flash_of_answer (id : Nat) (r : Result) (b : List Byte) (s : State) : (answer id r b s).flash = s.flash := by
  unfold answer; split <;> rfl
@[simp] theorem port_of_answer (id : Nat) (r : Result) (b : List Byte) (s : State) : (answer id r b s).port = s.port := by
  unfold answer; split <;> rfl
@[simp] theorem wb_of_answer (id : Nat) (r : Result) (b : List Byte) (s : State) : (answer id r b s).wb = s.wb := by
  unfold answer; split <;> rfl
@[simp] theorem dl_of_answer (id : Nat) (r : Result) (b : List Byte) (s : State) : (answer id r b s).dl = s.dl := by
  unfold answer; split <;> rfl
@[simp] theorem radio_of_answer (id : Nat) (r : Result) (b : List Byte) (s : State) : (answer id r b s).radio = s.radio := by
  unfold answer; split <;> rfl
@[simp] theorem pm_of_answer (id : Nat) (r : Result) (b : List Byte) (s : State) : (answer id r b s).pm = s.pm := by
  unfold answer; split <;> rfl
@[simp] theorem turn_of_answer (id : Nat) (r : Result) (b : List Byte) (s : State) : (answer id r b s).turn = s.turn := by
  unfold answer; split <;> rfl
@[simp] theorem keys_of_answer (id : Nat) (r : Result) (b : List Byte) (s : State) : (answer id r b s).keys = s.keys := by
  unfold answer; split <;> rfl
@[simp] theorem panel_of_answer (id : Nat) (r : Result) (b : List Byte) (s : State) : (answer id r b s).panel = s.panel := by
  unfold answer; split <;> rfl
@[simp] theorem waveform_of_answer (id : Nat) (r : Result) (b : List Byte) (s : State) : (answer id r b s).waveform = s.waveform := by
  unfold answer; split <;> rfl
@[simp] theorem light_of_answer (id : Nat) (r : Result) (b : List Byte) (s : State) : (answer id r b s).light = s.light := by
  unfold answer; split <;> rfl
@[simp] theorem power_of_answer (id : Nat) (r : Result) (b : List Byte) (s : State) : (answer id r b s).power = s.power := by
  unfold answer; split <;> rfl
@[simp] theorem keep_of_answer (id : Nat) (r : Result) (b : List Byte) (s : State) : (answer id r b s).keep = s.keep := by
  unfold answer; split <;> rfl
@[simp] theorem supplies_of_answer (id : Nat) (r : Result) (b : List Byte) (s : State) : (answer id r b s).supplies = s.supplies := by
  unfold answer; split <;> rfl
@[simp] theorem faults_of_answer (id : Nat) (r : Result) (b : List Byte) (s : State) : (answer id r b s).faults = s.faults := by
  unfold answer; split <;> rfl
@[simp] theorem settings_of_answer (id : Nat) (r : Result) (b : List Byte) (s : State) : (answer id r b s).settings = s.settings := by
  unfold answer; split <;> rfl
@[simp] theorem storedSize_of_answer (id : Nat) (r : Result) (b : List Byte) (s : State) : (answer id r b s).storedSize = s.storedSize := by
  unfold answer; split <;> rfl
@[simp] theorem settingsGood_of_answer (id : Nat) (r : Result) (b : List Byte) (s : State) : (answer id r b s).settingsGood = s.settingsGood := by
  unfold answer; split <;> rfl
@[simp] theorem pins_of_answer (id : Nat) (r : Result) (b : List Byte) (s : State) : (answer id r b s).pins = s.pins := by
  unfold answer; split <;> rfl
@[simp] theorem freeCount_of_answer (id : Nat) (r : Result) (b : List Byte) (s : State) : (answer id r b s).freeCount = s.freeCount := by
  unfold answer; split <;> rfl

/-! ### reportSector -/

@[simp] theorem pending_of_reportSector (n : Nat) (s : State) : (reportSector n s).pending = s.pending := by
  unfold reportSector; split <;> rfl
@[simp] theorem cat_of_reportSector (n : Nat) (s : State) : (reportSector n s).cat = s.cat := by
  unfold reportSector; split <;> rfl
@[simp] theorem blocks_of_reportSector (n : Nat) (s : State) : (reportSector n s).blocks = s.blocks := by
  unfold reportSector; split <;> rfl
@[simp] theorem flash_of_reportSector (n : Nat) (s : State) : (reportSector n s).flash = s.flash := by
  unfold reportSector; split <;> rfl
@[simp] theorem port_of_reportSector (n : Nat) (s : State) : (reportSector n s).port = s.port := by
  unfold reportSector; split <;> rfl
@[simp] theorem dl_of_reportSector (n : Nat) (s : State) : (reportSector n s).dl = s.dl := by
  unfold reportSector; split <;> rfl
@[simp] theorem radio_of_reportSector (n : Nat) (s : State) : (reportSector n s).radio = s.radio := by
  unfold reportSector; split <;> rfl
@[simp] theorem pm_of_reportSector (n : Nat) (s : State) : (reportSector n s).pm = s.pm := by
  unfold reportSector; split <;> rfl
@[simp] theorem turn_of_reportSector (n : Nat) (s : State) : (reportSector n s).turn = s.turn := by
  unfold reportSector; split <;> rfl
@[simp] theorem keys_of_reportSector (n : Nat) (s : State) : (reportSector n s).keys = s.keys := by
  unfold reportSector; split <;> rfl
@[simp] theorem panel_of_reportSector (n : Nat) (s : State) : (reportSector n s).panel = s.panel := by
  unfold reportSector; split <;> rfl
@[simp] theorem waveform_of_reportSector (n : Nat) (s : State) : (reportSector n s).waveform = s.waveform := by
  unfold reportSector; split <;> rfl
@[simp] theorem light_of_reportSector (n : Nat) (s : State) : (reportSector n s).light = s.light := by
  unfold reportSector; split <;> rfl
@[simp] theorem power_of_reportSector (n : Nat) (s : State) : (reportSector n s).power = s.power := by
  unfold reportSector; split <;> rfl
@[simp] theorem keep_of_reportSector (n : Nat) (s : State) : (reportSector n s).keep = s.keep := by
  unfold reportSector; split <;> rfl
@[simp] theorem supplies_of_reportSector (n : Nat) (s : State) : (reportSector n s).supplies = s.supplies := by
  unfold reportSector; split <;> rfl
@[simp] theorem faults_of_reportSector (n : Nat) (s : State) : (reportSector n s).faults = s.faults := by
  unfold reportSector; split <;> rfl
@[simp] theorem settings_of_reportSector (n : Nat) (s : State) : (reportSector n s).settings = s.settings := by
  unfold reportSector; split <;> rfl
@[simp] theorem storedSize_of_reportSector (n : Nat) (s : State) : (reportSector n s).storedSize = s.storedSize := by
  unfold reportSector; split <;> rfl
@[simp] theorem settingsGood_of_reportSector (n : Nat) (s : State) : (reportSector n s).settingsGood = s.settingsGood := by
  unfold reportSector; split <;> rfl
@[simp] theorem link_of_reportSector (n : Nat) (s : State) : (reportSector n s).link = s.link := by
  unfold reportSector; split <;> rfl
@[simp] theorem pins_of_reportSector (n : Nat) (s : State) : (reportSector n s).pins = s.pins := by
  unfold reportSector; split <;> rfl
@[simp] theorem freeCount_of_reportSector (n : Nat) (s : State) : (reportSector n s).freeCount = s.freeCount := by
  unfold reportSector; split <;> rfl

end Sys2Proof.Machine
end

