-- ==== Sys2Proof/WellFormed.lean ====
section
/-! DEFINITION. When a command is one that the part's lines and links can carry: field widths and ranges of operands
that the types alone do not bound. -/

namespace Sys2Proof

/-- A request frame's payload is at most 16384 bytes (section 11.7). -/
def Frame.wf (f : Frame) : Bool := decide (f.payload.length ≤ 16384)

/-- A disagreement names a word of the 32 MiB of page memory (R78). -/
def WordFlip.wf (w : WordFlip) : Bool := decide (w.word < 4194304)

/-- Request codes of the index (section 11.5); any other names no request. -/
def unknownCode (code : Byte) : Bool := code == 0 || decide (0x33 < code.toNat)

/-- A battery sample is a number of mV of two bytes. -/
def ResetInputs.wf (i : ResetInputs) : Bool := decide (i.millivolts ≤ 65535)

/-- The bytes end before a frame does (R192): before the header is whole, or after a good header and before the last byte
of the check. -/
def shortWf (bytes : List Byte) : Bool :=
  decide (bytes.length < 8)
    || (Machine.headerGood (bytes.take 8)
      && decide (bytes.length < 10 + Machine.leNat ((bytes.drop 4).take 2)))

/-- The operands of the command lie in the ranges of the manual. A radio transaction of fewer than 10 bytes is a bad frame
whatever its kind byte (R203; log 63). -/
def Instr.wf : Instr → Bool
  | .coldStart inputs _ => inputs.wf
  | .partReset inputs => inputs.wf
  | .shelfWake inputs => inputs.wf
  | .bringupReadEnd => true
  | .bringupCompletion _ pressed ambient => decide pressed.Nodup && decide (ambient ≤ 4095)
  | .shortTransaction bytes => shortWf bytes
  | .badHeader header => header.length == 8 && !Machine.headerGood header
  | .unknownRequest code f => unknownCode code && f.wf
  | .findTitle f => f.wf
  | .readTitleRecord f => f.wf
  | .listTitles f => f.wf
  | .readTitleBytes f => f.wf
  | .setPosition f => f.wf
  | .setTag f => f.wf
  | .setLayoutGeneration f => f.wf
  | .setExpiry f => f.wf
  | .holdTitle f => f.wf
  | .releaseTitle f => f.wf
  | .retireTitle f => f.wf
  | .flushCatalogue f => f.wf
  | .writeBackDelayExpiry => true
  | .sectorWriteEnd _ => true
  | .titleReadPieceEnd => true
  | .startDownload f => f.wf
  | .restartDownload f => f.wf
  | .cancelDownload f => f.wf
  | .readTransfer f => f.wf
  | .segmentFrame _ => true
  | .queryTransfer _ => true
  | .endOfStream _ => true
  | .radioStatusRead => true
  | .badRadioFrame bytes => decide (bytes.length < 10) || decide (3 < (bytes.getD 0 0).toNat)
  | .blockEraseEnd _ => true
  | .segmentProgramEnd _ => true
  | .verificationReadEnd => true
  | .inactivityDeadlineExpiry _ => true
  | .claimSlot f => f.wf
  | .writePixels f flips => f.wf && flips.all WordFlip.wf
  | .completeSlot f => f.wf
  | .freeSlot f => f.wf
  | .readSlots f => f.wf
  | .keyEvent _ => true
  | .keyRelease _ => true
  | .readKeys f => f.wf
  | .showSlot => true
  | .giveUpShownSlot => true
  | .trailingRelease => true
  | .turnHold => true
  | .turnRelease => true
  | .positionWrite => true
  | .setCurrentTitle f => f.wf
  | .clearCurrentTitle f => f.wf
  | .resumeTurning f => f.wf
  | .setPassThrough f => f.wf
  | .goToPage f => f.wf
  | .readTurnState f => f.wf
  | .updateRegion f => f.wf
  | .cancelUpdates f => f.wf
  | .laneLoadEnd _ reads => reads.flips.all WordFlip.wf
  | .panelSupplyRegulation => true
  | .panelSupplyFailure => true
  | .offDelayEnd => true
  | .driveEnd _ => true
  | .laneCompletion _ flips => flips.all WordFlip.wf
  | .readPanel f => f.wf
  | .temperatureSample _ => true
  | .setLight f => f.wf
  | .readLight f => f.wf
  | .ambientSample reading => decide (reading ≤ 4095)
  | .rampStep => true
  | .autoDimExpiry => true
  | .lightOffExpiry => true
  | .enterReading f => f.wf
  | .resumeActive f => f.wf
  | .enterDormant f => f.wf
  | .enterShelf f => f.wf
  | .dormantHeldAction => true
  | .dormantDelayExpiry => true
  | .armWake f => f.wf
  | .batterySample millivolts => decide (millivolts ≤ 65535)
  | .chgChange _ => true
  | .criticalTimerExpiry => true
  | .setTime f => f.wf
  | .realTimeCountStep => true
  | .setAlarm f => f.wf
  | .readPower f => f.wf
  | .readFault f => f.wf
  | .clearFault f => f.wf
  | .writeSettings f => f.wf
  | .settingsWriteEnd _ => true
  | .readSettings f => f.wf
  | .writeWaveforms f => f.wf
  | .waveformWriteEnd _ => true
  | .status f => f.wf
  | .fetchReply f => f.wf
  | .replyFetched => true
  | .ackAttention f => f.wf
  | .resetLink f => f.wf
  | .restart f => f.wf
  | .mainSupplyLoss _ => true

end Sys2Proof
end

