-- ==== Sys2Proof/Tests/Slice0.lean ====
section
/-! SUPPORT. Tests of the model: ill-formed commands, a few frames and steps, and for each statement of Obligations.lean
states and operands that meet the premises of its clauses. -/

open Sys2Proof Sys2Proof.Machine

-- One proof at a time: side by side, the kernel evaluations below take a thread each.
set_option Elab.async false

namespace Sys2Proof.Test

/-! ### Helpers -/

/-- A request frame with tag 3 and a good check. -/
def good (code : RequestCode) (payload : List Byte) : Frame :=
  let f : Frame := ⟨3, 0, payload, 0⟩
  { f with crc := crc16 (requestHeader code.toNat f ++ payload) }

/-- The same with an expected revision at the end of its payload. -/
def expecting (code : RequestCode) (payload : List Byte) : Frame :=
  let f : Frame := ⟨3, 1, payload, 0⟩
  { f with crc := crc16 (requestHeader code.toNat f ++ payload) }

/-- ACTIVE, with nothing begun. -/
def calm : State := { State.blank with power := { Power.blank with state := .active, bringup := .complete } }

/-- READING, with nothing begun. -/
def reading : State := { calm with power.state := .reading }

/-- DORMANT, with nothing held. -/
def dormant : State := { calm with power.state := .dormant, pm.mode := .selfRefresh }

/-- A record of 40000 bytes in one block, with generation 2. -/
def title (state : TitleState) : TitleRecord :=
  { state := state, key := 7, revision := 9, declaredLength := some 40000, titleCheck := some 0, extents := [⟨8, 1⟩]
    position := 0, generation := 2, tag := 0, expiry := none, fetch := .done, holds := 0, dirty := false }

/-- Handle 5 holds a record. -/
def with5 (r : TitleRecord) (s : State) : State := setRecord 5 r s

theorem recordAt_calm (h : Nat) : calm.recordAt h = TitleRecord.blank := by
  unfold State.recordAt
  split
  · exact Vector.getElem_replicate ..
  · rfl

/-- The premises about numbers, as a computation. -/
def numbersChecked (s : State) : Bool :=
  let n := fun id : Nat => decide (id < s.link.nextId)
  s.link.outstanding.all (fun o => n o.id) && s.cat.reads.all (fun r => n r.request) && s.pm.held.all (fun w => n w.request)
    && s.panel.queue.all (fun e => e.requesters.all n) && s.panel.lanes.toList.all (fun l => l.requesters.all n)
    && s.turn.flight.all (fun f => f.origin.requests.all n) && s.turn.change.all (fun c => n c.request)
    && s.wb.flushes.all (fun f => f.owner.requests.all n) && s.port.waiting.all (fun op => op.job.requests.all n)
    && s.port.phase.requests.all n && s.power.dormantCauses.all (fun c => c.requests.all n)
    && s.power.shelfCauses.all (fun c => c.requests.all n) && s.power.heldShelf.all (fun r => n r.id)
    && s.power.heldWake.all (fun w => w.requests.all n)

theorem numbersGiven_of {s : State} (h : numbersChecked s = true) : numbersGiven s := by
  simp only [numbersChecked, Bool.and_eq_true, List.all_eq_true, decide_eq_true_eq, Option.all_eq_true] at h
  obtain ⟨⟨⟨⟨⟨⟨⟨⟨⟨⟨⟨⟨⟨a, b⟩, c⟩, d⟩, e⟩, f⟩, g⟩, i⟩, j⟩, k⟩, l⟩, m⟩, n⟩, o⟩ := h
  refine ⟨a, b, c, d, fun x => ?_, ?_, ?_, i, j, k, l, m, ?_, ?_⟩
  · exact e _ (by simp)
  · intro x hx; exact f x hx
  · intro x hx; exact g x hx
  · intro x hx; exact n x hx
  · intro x hx; exact o x hx

/-- The request table is sound where its premises are computed and no request is replied. -/
theorem requestsSound_of {s : State} (numbers : numbersChecked s = true ∧ s.heldNumbers.Nodup) (orders : ordersGiven s)
    (table : s.link.outstanding.length ≤ 8 ∧ s.link.outstanding.Pairwise (fun a b => a.tag ≠ b.tag ∧ a.id ≠ b.id)
      ∧ s.link.outstanding.filter (·.replied) = []) (replies : s.link.replies = []) : requestsSound s :=
  ⟨numbersGiven_of numbers.1, numbers.2, orders, table.1, table.2.1, by rw [replies, table.2.2]; exact List.Perm.nil⟩

/-- A change request without an expected revision stands where its handle names a record. -/
theorem stands_of {f : Frame} {s : State} (a : Frame.expects f = false)
    (b : validHandle (field (Frame.body f) 0 2) = true) : changeStands f s :=
  ⟨b, fun r h => by simp [Frame.revision, a] at h⟩

/-- The error of a result, if it is one. -/
def errorOf {α β : Type} : Except α β → Option α
  | .error a => some a
  | .ok _ => none

/-- The value of a result, if it has one. -/
def valueOf {α β : Type} : Except α β → Option β
  | .error _ => none
  | .ok b => some b

/-! ### Well-formed commands -/

theorem test_longFrame_refused :
    Instr.wf (.findTitle ⟨0, 0, List.replicate 16385 0, 0⟩) = false ∧ Instr.wf (.findTitle ⟨0, 0, List.replicate 8 0, 0⟩) = true := by
  decide +kernel

theorem test_shortHeader_refused :
    Instr.wf (.badHeader [0x4A]) = false ∧ Instr.wf (.badHeader [1, 2, 3, 4, 5, 6, 7, 8]) = true := by decide

theorem test_knownCode_refused :
    Instr.wf (.unknownRequest 0x33 ⟨0, 0, [], 0⟩) = false ∧ Instr.wf (.unknownRequest 0x34 ⟨0, 0, [], 0⟩) = true
      ∧ Instr.wf (.unknownRequest 0 ⟨0, 0, [], 0⟩) = true := by decide

theorem test_farFlip_refused :
    Instr.wf (.laneCompletion 0 [⟨4194304, .single⟩]) = false ∧ Instr.wf (.laneCompletion 0 [⟨4194303, .single⟩]) = true := by
  decide

theorem test_farLoadFlip_refused : Instr.wf (.laneLoadEnd 0 ⟨[⟨4194304, .double⟩], false, false⟩) = false := by decide

theorem test_farMergeFlip_refused : Instr.wf (.writePixels ⟨0, 0, [], 0⟩ [⟨4194304, .double⟩]) = false := by decide

theorem test_wideSample_refused :
    Instr.wf (.batterySample 65536) = false ∧ Instr.wf (.coldStart ⟨65536, false⟩ true) = false
      ∧ Instr.wf (.partReset ⟨65536, false⟩) = false ∧ Instr.wf (.shelfWake ⟨65536, false⟩) = false
      ∧ Instr.wf (.batterySample 65535) = true := by decide

theorem test_wideAmbient_refused :
    Instr.wf (.ambientSample 4096) = false ∧ Instr.wf (.ambientSample 4095) = true
      ∧ Instr.wf (.bringupCompletion 20 [] 4096) = false ∧ Instr.wf (.bringupCompletion 20 [.fwd, .fwd] 0) = false := by
  decide

theorem test_goodRadioFrame_refused :
    Instr.wf (.badRadioFrame [3, 0, 0, 0, 0, 0, 0, 0, 0, 0]) = false ∧ Instr.wf (.badRadioFrame [4, 0, 0, 0, 0, 0, 0, 0, 0, 0]) = true
      ∧ Instr.wf (.badRadioFrame [1]) = true := by decide

/-! ### Premises: steps and frames -/

/-- Eight requests are outstanding, with tags 0 and 4 to 10. -/
def crowded : State :=
  { calm with
    link.nextId := 8
    link.outstanding := [0, 4, 5, 6, 7, 8, 9, 10].zipIdx.map fun p => ⟨p.2, p.1, .readKeys, false⟩ }

/-- One request with tag 3 is outstanding. -/
def tagged : State := { calm with link.nextId := 1, link.outstanding := [⟨0, 3, .readKeys, false⟩] }

/-- The main supply is absent. -/
def dark : State := { calm with supplies := ⟨false, true⟩ }

theorem test_meets_StepRunsFrontCommand : ({ calm with pending := [.rampStep] } : State).pending = .rampStep :: [] := rfl

/-- A RESTART has been accepted. -/
def restarting : State := { calm with link.restart := true }

theorem test_meets_StepRunsFrontCommand_empty :
    (calm.pending = [] ∧ calm.powered = true ∧ calm.link.restart = false ∧ calm.power.state ≠ .bringup)
      ∧ (dark.pending = [] ∧ dark.powered = false)
      ∧ (restarting.pending = [] ∧ restarting.powered = true ∧ restarting.link.restart = true) := by
  decide

/-- Where no operation, no claim and no update waits, the shared resources are settled by what can be computed. -/
theorem resourcesSettled_of {s : State} (operations : s.port.waiting = []) (claims : s.power.waiting = [])
    (updates : s.panel.queue = []) (aims : lightAims s)
    (boost : (∃ c ∈ s.power.granted ++ s.power.waiting, c.owner = .boost) ↔
      s.power.state = .reading ∧ (s.power.turnBoost = true ∨ s.power.downloadBoost = true))
    (clock : s.power.clock = s.clockRate ∧ s.power.state ≠ .reading ∨ s.power.clock = .full ∧ s.boostGranted = true
      ∧ s.power.state = .reading)
    (mask : s.light.maskCount = (s.panel.lanes.toList.filter fun l => l.state == .driving && l.mode == .clear).length)
    (allowance : s.light.allowance = s.ceiling - s.grantedSum - 0)
    (claim : s.power.lightClaim = ((max s.light.warmOutput s.light.warmTarget
        + max s.light.coolOutput s.light.coolTarget) * 25 + 1022) / 1023 ∧ s.power.lightClaim ≤ s.light.allowance)
    (ramp : s.light.ramp.isRunning = true ↔
      s.light.warmOutput ≠ s.light.warmTarget ∨ s.light.coolOutput ≠ s.light.coolTarget)
    (transfers : s.power.transfersActive = s.anyTransfer ∧ s.power.downloadBoost = false ∧ s.power.dormantDelay ≠ .deferred)
    (entry : s.power.entry = some .dormant → entryStands s) (dormant : s.power.state = .dormant → dormantStands s) :
    resourcesSettled s where
  port _ op h := absurd h (by rw [operations]; exact List.not_mem_nil)
  head c h := absurd h (by rw [claims]; simp)
  panel _ _ _ _ _ ahead e later h := absurd h (by rw [updates]; simp [admissionOrder])
  boost := boost
  clock := by
    obtain ⟨a, b⟩ | ⟨a, b, c⟩ := clock
    · rw [a, State.clockRate]
      cases e : s.power.state <;> first | rfl | exact absurd e b
    · simp only [State.boostGranted, List.any_eq_true, beq_iff_eq] at b
      simp [a, b, c]
  mask := mask
  allowance := by rw [allowance, claims]; rfl
  aims := aims
  claim := claim
  ramp := ramp
  transfers := transfers.1
  download h := absurd h (by simp [transfers.2.1])
  deferred h := absurd h transfers.2.2
  entry := entry
  dormant := dormant

theorem resourcesSettled_calm : resourcesSettled calm :=
  resourcesSettled_of rfl rfl rfl (by unfold lightAims; decide) (by decide) (by decide) (by decide) (by decide) (by decide)
    (by decide) (by decide) (fun h => absurd h (by decide)) (fun h => absurd h (by decide))

/-- A lane drives in MONO. -/
def driving : State := setLane 0 { Lane.blank with state := .driving, mode := .mono } calm

/-- A DORMANT entry waits for that lane. -/
def entering : State := { driving with power := { calm.power with entry := some .dormant, step := some .lanes } }

/-- DORMANT as an entry leaves it. -/
def settledDormant : State := { dormant with power.clock := .economy, light.forcedDark := true }

theorem resourcesSettled_entering : resourcesSettled entering :=
  resourcesSettled_of rfl rfl rfl (by unfold lightAims; decide) (by decide) (by decide) (by decide) (by decide) (by decide)
    (by decide) (by decide) (fun _ => ⟨Or.inl rfl, fun e h => absurd h (List.not_mem_nil), ⟨0, by decide⟩⟩)
    (fun h => absurd h (by decide))

theorem resourcesSettled_dormant : resourcesSettled settledDormant :=
  resourcesSettled_of rfl rfl rfl (by unfold lightAims; decide) (by decide) (by decide) (by decide) (by decide) (by decide)
    (by decide) (by decide) (fun h => absurd h (by decide))
    (fun _ => ⟨by decide, fun e h => absurd h (List.not_mem_nil), ⟨⟨by decide, by decide, by decide⟩, by decide, by decide⟩, rfl⟩)

theorem test_meets_StepsSettleTheResources :
    (resourcesSettled calm ∧ step calm = .next (tick calm)) ∧ (resourcesSettled entering ∧ step entering = .next (tick entering))
      ∧ (resourcesSettled settledDormant ∧ step settledDormant = .next (tick settledDormant)) :=
  ⟨⟨resourcesSettled_calm, rfl⟩, ⟨resourcesSettled_entering, rfl⟩, ⟨resourcesSettled_dormant, rfl⟩⟩

theorem test_meets_RefusedFrame :
    dark.powered = false ∧ (calm.powered = true ∧ calm.link.restart = false)
      ∧ (Frame.crcGood RequestCode.readLight.toNat ⟨0, 0, [], 0⟩ && Frame.flagsGood ⟨0, 0, [], 0⟩) = false
      ∧ (let f := good .readLight []; (Frame.crcGood RequestCode.readLight.toNat f && Frame.flagsGood f) = true
          ∧ (State.blank.powered = true ∧ State.blank.power.state = .bringup)
          ∧ (RequestCode.inline .readLight = false ∧ 8 ≤ crowded.link.outstanding.length)
          ∧ tagged.link.outstanding.length < 8 ∧ ∃ o ∈ tagged.link.outstanding, o.tag = f.tag) := by
  refine ⟨by decide, by decide, by decide +kernel, by decide +kernel, by decide, by decide, by decide, ?_⟩
  exact ⟨_, List.mem_singleton.mpr rfl, rfl⟩

theorem test_meets_TakenFramesAreAnswered :
    (dormant.powered = true ∧ dormant.refusal .setPosition (good .setPosition [5, 0, 1, 0]) = none
        ∧ dormant.asleep = true ∧ RequestCode.takenAsleep .setPosition = false)
      ∧ (calm.refusal .readLight (expecting .readLight [0, 0]) = none ∧ calm.asleep = false
          ∧ Frame.expects (expecting .readLight [0, 0]) = true ∧ RequestCode.isChange .readLight = false)
      ∧ (calm.refusal .setTag (good .setTag [5, 0]) = none
          ∧ RequestCode.lengthGood .setTag (Frame.body (good .setTag [5, 0])) = false)
      ∧ (calm.refusal .status (good .status [1]) = none ∧ RequestCode.inline .status = true
          ∧ RequestCode.lengthGood .status (Frame.body (good .status [1])) = false)
      ∧ takes .readLight (good .readLight []) calm := by
  unfold takes; decide +kernel

theorem test_meets_FramesWithoutARequest :
    let good := fun bytes : List Byte => bytes.getD 0 0 = 0x4A ∧ (bytes.getD 2 0).toNat ≤ 15
      ∧ leNat [bytes.getD 4 0, bytes.getD 5 0] ≤ 16384
      ∧ leNat [bytes.getD 6 0, bytes.getD 7 0] = (crc16 (bytes.take 6)).toNat
    good ([0x4A, 3, 15, 0, 0, 64] ++ leBytes 2 (crc16 [0x4A, 3, 15, 0, 0, 64]).toNat)
      ∧ ¬good ([0x4A, 3, 16, 0, 0, 64] ++ leBytes 2 (crc16 [0x4A, 3, 16, 0, 0, 64]).toNat)
      ∧ ¬good ([0x4A, 3, 15, 0, 1, 64] ++ leBytes 2 (crc16 [0x4A, 3, 15, 0, 1, 64]).toNat)
      ∧ ¬good [0x4A, 3, 15, 0, 0, 64, 0, 0] ∧ calm.powered = true ∧ calm.link.restart = false := by
  decide +kernel

theorem test_meets_StatusAndFetchReply :
    takesInline .status (good .status []) calm
      ∧ (takesInline .fetchReply (good .fetchReply []) calm ∧ calm.link.replies = [])
      ∧ takesInline .fetchReply (good .fetchReply []) { calm with link.replies := [⟨3, some .readLight, .ok, []⟩] }
      ∧ (let s := { calm with link := { calm.link with fetching := true, replies := [⟨3, some .readLight, .ok, []⟩] } }
        s.powered = true ∧ s.link.fetching = true ∧ s.link.replies = ⟨3, some .readLight, .ok, []⟩ :: [])
      ∧ calm.link.fetching = false := by
  unfold takesInline; decide +kernel

theorem test_meets_AckAttentionRemovesNamedReasons :
    takesInline .ackAttention (good .ackAttention [255, 15]) calm
      ∧ field (good .ackAttention [255, 15]).payload 0 2 = (0xFFF#12).toNat := by
  unfold takesInline; decide +kernel

theorem test_meets_ResetLinkAndRestart :
    takesInline .resetLink (good .resetLink []) calm
      ∧ (takes .restart (good .restart []) calm ∧ calm.power.entry = none)
      ∧ (restarting.powered = true ∧ restarting.link.restart = true) := by
  unfold takesInline takes; decide +kernel

/-! ### Premises: titles -/

theorem test_meets_FindTitle :
    let f := good .findTitle [7, 0, 0, 0, 0, 0, 0, 0]
    let s := with5 (title .ready) calm
    (takes .findTitle f calm ∧ numbersFresh calm ∧ ∀ h, ¬(1 ≤ h ∧ h ≤ 1024 ∧ (calm.recordAt h).state ≠ .empty ∧ (calm.recordAt h).key = 7))
      ∧ takes .findTitle f s ∧ field (Frame.body f) 0 8 = (7#64).toNat
      ∧ (s.recordAt 5).state ≠ .empty ∧ (s.recordAt 5).key = 7
      ∧ ∀ g, 1 ≤ g ∧ g ≤ 1024 ∧ (s.recordAt g).state ≠ .empty ∧ (s.recordAt g).key = 7 → g = 5 := by
  intro f s
  refine ⟨⟨by unfold takes; decide +kernel, by unfold numbersFresh; decide, fun h => ?_⟩, by unfold takes; decide +kernel,
    by decide, by decide +kernel, by decide +kernel, fun g hg => ?_⟩
  · rw [recordAt_calm]; exact fun x => x.2.2.1 rfl
  · obtain ⟨_, _, a, _⟩ := hg
    rw [show s = setRecord 5 (title .ready) calm from rfl, recordAt_setRecord] at a
    split at a
    · next h => exact h.1
    · rw [recordAt_calm] at a; exact absurd rfl a

theorem test_meets_ReadRequests :
    (takes .readTitleRecord (good .readTitleRecord [0, 4]) calm ∧ validHandle (field [0, 4] 0 2) = true)
      ∧ (takes .readTitleRecord (good .readTitleRecord [1, 4]) calm ∧ validHandle (field [1, 4] 0 2) = false)
      ∧ (takes .readTransfer (good .readTransfer [5, 0]) calm ∧ ∀ i : Fin 4, calm.dl.slots[i].state = .free)
      ∧ (takes .listTitles (good .listTitles [0, 4, 1, 255]) calm
          ∧ optionField [0, 4, 1, 255] 2 1 = some (some 255) ∧ validHandle (field [0, 4, 1, 255] 0 2) = true)
      ∧ (takes .listTitles (good .listTitles [0, 0, 0, 0]) calm ∧ optionField [0, 0, 0, 0] 2 1 = some none)
      ∧ takes .readSlots (good .readSlots []) calm ∧ takes .readTurnState (good .readTurnState []) calm
      ∧ takes .readPanel (good .readPanel []) calm ∧ takes .readLight (good .readLight []) calm
      ∧ takes .readPower (good .readPower []) calm ∧ takes .readFault (good .readFault []) calm
      ∧ takes .readSettings (good .readSettings []) calm := by
  unfold takes; decide +kernel

/-- A transfer of handle 5 in slot 0, with tag 1 and three segments; it is transfer number 1. -/
def transfer (state : TransferState) : TransferSlot :=
  { state := state, handle := 5, tag := 1, received := [true, false, false], pending := [2], erased := [true], erasing := []
    deadline := .running 5, verification := none, xfer := 1 }

/-- ACTIVE with that transfer, whose record is FETCHING. -/
def fetching (t : TransferSlot) : State := setTransfer 0 t (with5 (title .fetching) calm)

theorem test_meets_ReadTransfer :
    takes .readTransfer (good .readTransfer [5, 0]) (fetching (transfer .receiving))
      ∧ (fetching (transfer .receiving)).dl.slots[(0 : Fin 4)].state ≠ .free
      ∧ (fetching (transfer .receiving)).dl.slots[(0 : Fin 4)].handle = 5
      ∧ ∀ j : Fin 4, (fetching (transfer .receiving)).dl.slots[j].state ≠ .free → j = 0 := by
  unfold takes; decide +kernel

theorem test_meets_ChangeChecksInOrder :
    (takes .setTag (good .setTag [1, 4, 9]) calm ∧ validHandle (field [1, 4, 9] 0 2) = false)
      ∧ (takes .setTag (expecting .setTag [5, 0, 9, 8, 0]) (with5 (title .ready) calm)
          ∧ Frame.revision (expecting .setTag [5, 0, 9, 8, 0]) = some 8
          ∧ ((with5 (title .ready) calm).recordAt 5).revision = 9)
      ∧ takes .setTag (good .setTag [5, 0, 9]) calm
      ∧ takes .holdTitle (good .holdTitle [5, 0]) (with5 (title .expired) calm)
      ∧ takes .holdTitle (good .holdTitle [5, 0]) (with5 (title .incomplete) calm)
      ∧ takes .holdTitle (good .holdTitle [5, 0]) (with5 { title .ready with holds := 15 } calm)
      ∧ takes .releaseTitle (good .releaseTitle [5, 0]) (with5 (title .ready) calm)
      ∧ takes .setExpiry (good .setExpiry [5, 0, 1, 0, 0, 0, 0]) (with5 (title .retiring) calm) := by
  unfold takes; decide +kernel

theorem test_meets_Changes :
    let s := with5 (title .ready) calm
    changeStands (good .setPosition [5, 0, 1, 0]) s ∧ takes .setPosition (good .setPosition [5, 0, 1, 0]) s
      ∧ changeStands (good .setTag [5, 0, 9]) s ∧ takes .setTag (good .setTag [5, 0, 9]) s
      ∧ changeStands (good .setLayoutGeneration [5, 0, 3]) s
      ∧ takes .setLayoutGeneration (good .setLayoutGeneration [5, 0, 3]) s
      ∧ changeStands (good .holdTitle [5, 0]) s ∧ takes .holdTitle (good .holdTitle [5, 0]) s
      ∧ changeStands (good .retireTitle [5, 0]) s ∧ takes .retireTitle (good .retireTitle [5, 0]) s
      ∧ numbersGiven s ∧ numbersApart s ∧ (s.recordAt 5).state = .ready ∧ (s.recordAt 5).holds < 15 :=
  ⟨stands_of (by decide) (by decide), by unfold takes; decide +kernel, stands_of (by decide) (by decide),
    by unfold takes; decide +kernel, stands_of (by decide) (by decide), by unfold takes; decide +kernel,
    stands_of (by decide) (by decide), by unfold takes; decide +kernel, stands_of (by decide) (by decide),
    by unfold takes; decide +kernel, numbersGiven_of (by decide +kernel), by unfold numbersApart; decide +kernel,
    by decide +kernel, by decide +kernel⟩

theorem test_meets_Releases :
    (∀ holds ∈ [1, 2], takes .releaseTitle (good .releaseTitle [5, 0]) (with5 { title .ready with holds := holds } calm)
        ∧ ((with5 { title .ready with holds := holds } calm).recordAt 5).holds = holds)
      ∧ calm.turn.title ≠ 5 := by
  unfold takes; decide +kernel

theorem test_meets_SetExpiry :
    (∀ state ∈ [TitleState.ready, .expired], ∀ flag ∈ [(0 : Byte), 1],
        takes .setExpiry (good .setExpiry [5, 0, flag, 9, 0, 0, 0]) (with5 (title state) calm))
      ∧ optionField [5, 0, 0, 9, 0, 0, 0] 2 4 = some none ∧ optionField [5, 0, 1, 9, 0, 0, 0] 2 4 = some (some 9)
      ∧ (with5 (title .expired) calm).cat.expiryList = [] ∧ calm.keep.valid = false := by
  unfold takes; decide +kernel

/-- Slot 0 of page memory names page 1 of handle 5. -/
def paged (state : PageSlotState) (s : State) : State := setSlot 0 ⟨state, 5, 1, 2, false, .grey16⟩ s

theorem test_meets_RetireTitle :
    let f := good .retireTitle [5, 0]
    (takes .retireTitle f (paged .shown (with5 (title .ready) calm))
        ∧ (paged .shown (with5 (title .ready) calm)).pm.slots[(0 : Fin 28)].state = .shown)
      ∧ (takes .retireTitle f (fetching (transfer .receiving))
          ∧ (fetching (transfer .receiving)).slotOf 5 = some 0
          ∧ ∀ i : Fin 28, (fetching (transfer .receiving)).pm.slots[i].state = .free) := by
  intro f; unfold takes; decide +kernel

/-- The last hold of a record of handle 5, with retirement on expiry on. -/
def lastHold (state : TitleState) : State :=
  { with5 { title state with holds := 1 } calm with settings.retireOnExpiry := true }

theorem test_meets_LastHold :
    let f := good .releaseTitle [5, 0]
    let g := good .freeSlot [0]
    let freed := fun state => paged state (with5 (title .retiring) calm)
    (∀ state ∈ [TitleState.retiring, .expired],
        takes .releaseTitle f (lastHold state) ∧ ((lastHold state).recordAt 5).holds = 1
          ∧ ((lastHold state).recordAt 5).state = state ∧ (lastHold state).turn.title ≠ 5
          ∧ (∀ i : Fin 28, (lastHold state).pm.slots[i].state = .free)
          ∧ ∀ i : Fin 4, (lastHold state).dl.slots[i].state = .free)
      ∧ ∀ state ∈ [PageSlotState.filling, .ready],
        takes .freeSlot g (freed state) ∧ field (Frame.body g) 0 1 = 0 ∧ ((freed state).recordAt 5).state = .retiring
          ∧ ((freed state).recordAt 5).holds = 0 ∧ (freed state).pm.slots[(0 : Fin 28)].handle = 5
          ∧ (freed state).pm.slots[(0 : Fin 28)].state = state
          ∧ (∀ j : Fin 28, j ≠ 0 → (freed state).pm.slots[j].state = .free)
          ∧ ∀ j : Fin 4, (freed state).dl.slots[j].state = .free := by
  intro f g freed; unfold takes; decide +kernel

theorem test_meets_LastHold_numbers :
    numbersGiven (lastHold .retiring) ∧ numbersGiven (paged .ready (with5 (title .retiring) calm))
      ∧ changeStands (good .releaseTitle [5, 0]) (lastHold .retiring) :=
  ⟨numbersGiven_of (by decide +kernel), numbersGiven_of (by decide +kernel), stands_of (by decide) (by decide)⟩

/-- Slot 0 shows a page of handle 5, RETIRING without holds; slot 1 is READY with a page of handle 6. -/
def retiringShown : State :=
  setSlot 1 ⟨.ready, 6, 2, 2, false, .grey16⟩ (paged .shown (with5 (title .retiring) calm))

theorem test_meets_LastHold_shown :
    (retiringShown.powered = true ∧ retiringShown.pm.slots[(0 : Fin 28)].state = .shown
        ∧ retiringShown.pm.slots[(0 : Fin 28)].handle = 5 ∧ (retiringShown.recordAt 5).state = .retiring
        ∧ (retiringShown.recordAt 5).holds = 0 ∧ (∀ i : Fin 4, retiringShown.dl.slots[i].state = .free)
        ∧ ∀ j : Fin 28, j ≠ 0 → retiringShown.pm.slots[j].state ≠ .free → retiringShown.pm.slots[j].handle ≠ 5)
      ∧ ({ retiringShown with turn.giveUps := [0] } : State).turn.giveUps = 0 :: []
      ∧ (retiringShown.pm.slots[(1 : Fin 28)].state = .ready ∧ retiringShown.panel.halted = false
          ∧ ∀ j : Fin 28, retiringShown.pm.slots[j].state = .shown → j = 0)
      ∧ (let s := setLane 2 { Lane.blank with state := .loading, source := 4, rect := ⟨0, 0, 8, 4⟩ }
          { retiringShown with pm.errors := [⟨4 * 131072, .double⟩] }
        s.panel.lanes[(2 : Fin 4)].state = .loading ∧ s.loadErrors 4 ⟨0, 0, 8, 4⟩ .double = true ∧ s.pm.held = []
          ∧ s.settings.reportCorrected = false ∧ s.panel.lanes[(2 : Fin 4)].mode = .clear) := by
  decide +kernel

theorem test_meets_LastHold_shown_numbers : numbersGiven retiringShown ∧ shelfWaits retiringShown :=
  ⟨numbersGiven_of (by decide +kernel), fun h => absurd h (by decide)⟩

/-- A title read of request 0 has the flash port, with some pieces left. -/
def readingTitle (left : Nat) : State :=
  { with5 (title .ready) calm with
    link.nextId := 1
    link.outstanding := [⟨0, 3, .readTitleBytes, false⟩]
    cat.reads := [⟨0, 5, true, left, []⟩]
    port := ⟨.busy ⟨2, false, .titleRead 0 524288 16⟩, []⟩ }

theorem test_meets_ReadTitleBytes :
    (∀ b ∈ [[0, 0, 0, 0, 0, 0, 1, 0], [5, 0, 0, 0, 0, 0, 0, 0], [5, 0, 63, 156, 0, 0, 1, 0], [5, 0, 0, 0, 0, 0, 0, 64]],
        takes .readTitleBytes (good .readTitleBytes b) (with5 (title .ready) calm))
      ∧ (field [5, 0, 63, 156, 0, 0, 1, 0] 2 4 + field [5, 0, 63, 156, 0, 0, 1, 0] 6 2 = 40000
          ∧ field [5, 0, 0, 0, 0, 0, 0, 64] 6 2 = 16384)
      ∧ takes .readTitleBytes (good .readTitleBytes [5, 0, 0, 0, 0, 0, 1, 0]) (with5 (title .expired) calm)
      ∧ takes .readTitleBytes (good .readTitleBytes [5, 0, 0, 0, 0, 0, 1, 0]) (with5 (title .retiring) calm)
      ∧ ∀ left ∈ [1, 2], (readingTitle left).powered = true
          ∧ (readingTitle left).cat.reads.find? (fun q => q.request == 0) = some ⟨0, 5, true, left, []⟩
          ∧ (readingTitle left).awaiting 0 = some ⟨0, 3, .readTitleBytes, false⟩ := by
  unfold takes; decide +kernel

/-- That read has the port, and a settings write and a piece of another read wait behind an operation held back. -/
def portWaits : State :=
  { readingTitle 1 with
    port.waiting := [⟨3, true, .verifyRead 7 0 1⟩, ⟨2, false, .settingsWrite 0 []⟩, ⟨2, false, .titleRead 0 0 1⟩] }

theorem test_meets_ReadTitleBytes_port :
    (portWaits.powered = true ∧ portWaits.power.entry = none ∧ portWaits.power.dormantDelay ≠ .deferred
        ∧ portWaits.unloadDue = false ∧ (∀ c ∈ portWaits.power.waiting, c.owner ≠ .port))
      ∧ (portWaits.port.waiting = [⟨3, true, .verifyRead 7 0 1⟩] ++ ⟨2, false, .settingsWrite 0 []⟩
          :: [⟨2, false, .titleRead 0 0 1⟩]
          ∧ ∀ op ∈ [(⟨3, true, .verifyRead 7 0 1⟩ : FlashOp)], op.held = true)
      ∧ (readingTitle 1).port.waiting = [] ∧ (readingTitle 1).unloadDue = false := by
  decide +kernel

/-! ### Premises: write-back -/

/-- Sector 0 waits in the write-back queue. -/
def unwritten : State := { calm with wb.queue := [⟨0, 0⟩] }

/-- The write number 0 of sector 0 has the flash port. -/
def writing : State :=
  { calm with
    wb.inFlight := some ⟨0, 0, 0⟩
    port := ⟨.busy ⟨4, false, .sectorWrite 0 0 (List.replicate 16 Persisted.blank)⟩, []⟩ }

theorem test_meets_WriteBack :
    (takes .flushCatalogue (good .flushCatalogue []) { calm with wb.halted := true })
      ∧ (takes .flushCatalogue (good .flushCatalogue []) calm ∧ calm.wb.queue = [] ∧ calm.wb.inFlight = none)
      ∧ (takes .flushCatalogue (good .flushCatalogue []) unwritten ∧ unwritten.wb.queue = ⟨0, 0⟩ :: []
          ∧ unwritten.wb.halted = false ∧ unwritten.wb.inFlight = none)
      ∧ (takes .flushCatalogue (good .flushCatalogue []) writing ∧ writing.wb.inFlight.isSome = true)
      ∧ (unwritten.powered = true ∧ unwritten.power.state ≠ .bringup ∧ unwritten.power.entry = none) := by
  unfold takes; decide +kernel

/-- A SHELF entry for a request waits for that write. -/
def shelving : State :=
  { writing with
    power := { dormant.power with entry := some .shelf, shelfCauses := [.enterShelf ⟨0, 3⟩, .criticalTimer] }
    wb.flushes := [⟨.shelfEntry, [.write 0]⟩]
    link.nextId := 1
    link.outstanding := [⟨0, 3, .enterShelf, false⟩] }

theorem test_meets_SectorWriteEnds_shelf :
    (shelving.powered = true ∧ shelving.wb.inFlight = some ⟨0, 0, 0⟩ ∧ shelving.power.entry = some .shelf
        ∧ shelving.power.state = .dormant
        ∧ shelving.power.shelfFlush = none ∧ shelving.power.heldWake = none ∧ shelving.power.attached = false)
      ∧ ({ shelving with faults := ⟨some ⟨.flashWrite, none, 0, false⟩, false, false⟩ } : State).faults.holdsSevere = true
      ∧ shelving.awaiting 0 = some ⟨0, 3, .enterShelf, false⟩ := by
  decide

/-- A wake is held behind that entry, that of a RESUME ACTIVE for request 1, or the charger has attached. -/
def shelvingWith (causes : List EntryCause) (wake : Option Wake) (attached : Bool) : State :=
  { shelving with
    power := { shelving.power with shelfCauses := causes, heldWake := wake, attached := attached }
    link.nextId := 2
    link.outstanding := [⟨0, 3, .enterShelf, false⟩, ⟨1, 4, .resumeActive, false⟩] }

theorem test_meets_SectorWriteEnds_wake :
    (∀ k ∈ [Wake.key ⟨.power, 0, 0, false⟩, .alarm, .resume ⟨1, 4⟩],
        (shelvingWith [.enterShelf ⟨0, 3⟩, .criticalTimer] (some k) false).power.heldWake = some k
          ∧ requestsSound (shelvingWith [.enterShelf ⟨0, 3⟩, .criticalTimer] (some k) false))
      ∧ EntryCause.exhausted ∉ (shelvingWith [.criticalTimer] none false).power.shelfCauses
      ∧ ((shelvingWith [.exhausted] none true).power.attached = true
          ∧ EntryCause.exhausted ∈ (shelvingWith [.exhausted] none true).power.shelfCauses)
      ∧ (shelvingWith [.exhausted] (some .alarm) false).power.attached = false := by
  refine ⟨fun k m => ⟨rfl, requestsSound_of ?_ ?_ ?_ rfl⟩, by decide, by decide, by decide⟩
  all_goals (revert k; (try unfold ordersGiven); decide +kernel)

theorem test_meets_SectorWriteEnds :
    writing.powered = true ∧ writing.wb.inFlight = some ⟨0, 0, 0⟩ ∧ (List.replicate 16 Persisted.blank).length = 16
      ∧ (∀ fl ∈ writing.wb.flushes, fl.owner ≠ .shelfEntry) ∧ writing.power.entry = none := by
  decide

/-! ### Premises: downloads -/

/-- START DOWNLOAD of a title with a key, a length, an expiry presence byte and no tag. -/
def startFrame (key lo hi present : Byte) : Frame :=
  good .startDownload [key, 0, 0, 0, 0, 0, 0, 0, lo, hi, 0, 0, 1, 2, 3, 4, present, 9, 0, 0, 0, 0, 0]

/-- Every block is taken but for those that a count leaves free, one in two. -/
def scattered (free : Nat) : List BlockCondition :=
  (List.replicate free [BlockCondition.free, .owned 9]).flatten ++ List.replicate 10 (.owned 9)

theorem test_meets_StartDownload :
    (takes .startDownload (startFrame 0 1 0 0) calm ∧ takes .startDownload (startFrame 7 0 0 0) calm)
      ∧ takes .startDownload (startFrame 7 1 0 0) (with5 (title .ready) calm)
      ∧ (∀ present ∈ [(0 : Byte), 1], takes .startDownload (startFrame 7 1 0 present) calm
          ∧ optionField (Frame.body (startFrame 7 1 0 present)) 16 4 = some (if present = 0 then none else some 9)
          ∧ optionField (Frame.body (startFrame 7 1 0 present)) 21 1 = some none)
      ∧ calm.keep.valid = false ∧ (calm.recordAt 1).state = .empty ∧ calm.dl.slots[(0 : Fin 4)].state = .free
      ∧ errorOf (allocate 1 (scattered 0)) = some .noSpace
      ∧ errorOf (allocate 17 (scattered 17)) = some .fragmented
      ∧ valueOf (allocate 16 (scattered 16)) = some ((List.range 16).map fun i => ⟨8 + 2 * i, 1⟩) := by
  unfold takes; decide +kernel

/-- All four transfer slots are busy. -/
def loaded : State := { calm with dl.slots := Vector.replicate 4 { transfer .receiving with handle := 9 } }

/-- No record is EMPTY. -/
def stocked : State := { calm with cat.records := Vector.replicate 1024 (title .ready) }

theorem test_meets_StartDownload_full :
    (takes .startDownload (startFrame 8 1 0 0) stocked ∧ ∀ g, 1 ≤ g → g ≤ 1024 → (stocked.recordAt g).state ≠ .empty)
      ∧ takes .startDownload (startFrame 8 1 0 0) loaded ∧ ∀ i : Fin 4, loaded.dl.slots[i].state ≠ .free := by
  refine ⟨⟨by unfold takes; decide +kernel, fun g a b => ?_⟩, by unfold takes; decide +kernel, by decide⟩
  simp [State.recordAt, stocked, a, b, title]

theorem test_meets_RestartAndCancelDownload :
    takes .restartDownload (good .restartDownload [1, 4]) calm
      ∧ takes .restartDownload (good .restartDownload [5, 0]) (with5 (title .ready) calm)
      ∧ takes .restartDownload (good .restartDownload [5, 0]) (with5 { title .incomplete with extents := [] } calm)
      ∧ takes .restartDownload (good .restartDownload [5, 0]) (with5 (title .incomplete) loaded)
      ∧ takes .restartDownload (good .restartDownload [5, 0]) (with5 (title .incomplete) calm)
      ∧ ((title .incomplete).extents.map (·.count)).sum = ((title .incomplete).declaredLength.getD 0 + 65535) / 65536
      ∧ takes .cancelDownload (good .cancelDownload [5, 0]) (with5 (title .ready) calm)
      ∧ takes .cancelDownload (good .cancelDownload [5, 0]) (fetching (transfer .receiving))
      ∧ (fetching (transfer .receiving)).slotOf 5 = some 0 := by
  unfold takes; decide +kernel

/-- A radio frame with a good check. -/
def radioFrame (tag : Byte) (index : BitVec 16) (payload : List Byte) : RadioFrame :=
  let n := BitVec.ofNat 16 payload.length
  ⟨tag, index, n, payload, crc32 ([tag] ++ leBytes 2 index.toNat ++ leBytes 2 n.toNat ++ payload)⟩

/-- The record of a transfer whose segment 1 has 4 bytes. -/
def small : TitleRecord := { title .fetching with declaredLength := some 16388 }

/-- ACTIVE with a transfer of two segments, the first of them received. -/
def receiving (state : TransferState) (pending : List Nat) (buffers : Option Segment) : State :=
  { setTransfer 0 { transfer state with received := [true, false], pending := pending } (with5 small calm) with
    dl.buffers := Vector.replicate 4 buffers }

theorem test_meets_SegmentFrames :
    (let r := radioFrame 1 1 [1, 2, 3, 4]
    (r.payload.length = r.length.toNat ∧ RadioFrame.checkGood r = true ∧ calm.slotTagged r.tag.toNat = none)
      ∧ ((receiving .suspended [] none).slotTagged r.tag.toNat = some 0)
      ∧ valueOf (segmentChecks r (receiving .receiving [] none)) = some 0
      ∧ errorOf (segmentChecks r (receiving .suspended [] none)) = some .suspended
      ∧ errorOf (segmentChecks r (receiving .receiving [1] none)) = some .duplicate
      ∧ errorOf (segmentChecks r (receiving .receiving [] (some ⟨1, 1, 0, [], .atPort, 0⟩))) = some .noBuffer
      ∧ errorOf (segmentChecks { r with check := 0 } (receiving .receiving [] none)) = some .badCheck)
    ∧ errorOf (segmentChecks (radioFrame 1 2 [1, 2, 3, 4]) (receiving .receiving [] none)) = some .outOfRange
    ∧ errorOf (segmentChecks (radioFrame 1 1 [1, 2, 3]) (receiving .receiving [] none)) = some .badLength
    ∧ (receiving .receiving [] none).powered = true ∧ (receiving .receiving [] none).power.entry = none := by
  decide +kernel

theorem test_meets_RadioQueries :
    let r := radioFrame 1 0 []
    (r.index = 0 ∧ r.length = 0 ∧ r.payload = [] ∧ RadioFrame.checkGood r = true ∧ calm.slotTagged r.tag.toNat = none)
      ∧ (receiving .receiving [] none).slotTagged r.tag.toNat = some 0
      ∧ ((receiving .receiving [] none).dl.slots[(0 : Fin 4)].received.all id) = false
      ∧ (receiving .verifying [] none).dl.slots[(0 : Fin 4)].state = .verifying
      ∧ RadioFrame.checkGood (radioFrame 1 1 []) = true := by
  decide +kernel

/-- The transfer of slot 0 has the flash port with a job. -/
def atPort (t : TransferSlot) (job : FlashJob) : State := { fetching t with port := ⟨.busy ⟨3, false, job⟩, []⟩ }

theorem test_meets_FlashEnds :
    let erase := atPort (transfer .receiving) (.erase 1 5 0 8)
    let program := { atPort (transfer .receiving) (.program 1 5 2 (16384 * 34) 0) with
      dl.buffers := Vector.replicate 4 (some ⟨1, 1, 2, [1, 2], .programming, 0⟩) }
    (erase.powered = true ∧ erase.slotHolding 1 = some 0 ∧ erase.power.entry = none)
      ∧ (program.powered = true ∧ program.slotHolding 1 = some 0
          ∧ program.dl.buffers[(0 : Fin 4)] = some ⟨1, 1, 2, [1, 2], .programming, 0⟩) := by
  decide +kernel

/-- The verification of a title of 4 bytes is at an offset. -/
def verifying (length : Nat) : State :=
  { setTransfer 0 { transfer .verifying with verification := some ⟨0, 0xFFFFFFFF#32⟩ }
      (with5 { title .fetching with declaredLength := some 4, titleCheck := some (crc32 [255, 255, 255, 255]) } calm) with
    port := ⟨.busy ⟨5, false, .verifyRead 1 524288 length⟩, []⟩ }

theorem test_meets_Verification :
    (∀ length ∈ [3, 4], (verifying length).powered = true ∧ (verifying length).slotHolding 1 = some 0
        ∧ (verifying length).dl.slots[(0 : Fin 4)].verification = some ⟨0, 0xFFFFFFFF#32⟩)
      ∧ ((verifying 4).recordAt 5).titleCheck = some (crc32Finish (crc32Feed 0xFFFFFFFF#32 [255, 255, 255, 255]))
      ∧ (fetching (transfer .receiving)).dl.slots[(0 : Fin 4)].state = .receiving
      ∧ (fetching (transfer .suspended)).dl.slots[(0 : Fin 4)].state ≠ .receiving := by
  decide +kernel

/-! ### Premises: page memory -/

/-- Every page slot has a state. -/
def allSlots (state : PageSlotState) (s : State) : State :=
  { s with pm.slots := Vector.replicate 28 ⟨state, 6, 1, 2, false, .grey16⟩ }

theorem test_meets_Slots :
    (let f := good .claimSlot [5, 0, 1, 0, 2, 1, 1]
    flagField (Frame.body f) 5 = some true ∧ hintField (Frame.body f) 6 = some .clear
      ∧ takes .claimSlot (good .claimSlot [1, 4, 1, 0, 2, 1, 1]) calm
      ∧ (let g := good .claimSlot [5, 0, 1, 0, 2, 1, 2]
        takes .claimSlot g (with5 (title .ready) calm) ∧ flagField (Frame.body g) 5 = some true
          ∧ hintField (Frame.body g) 6 = none)
      ∧ takes .claimSlot f (with5 (title .fetching) calm)
      ∧ takes .claimSlot (good .claimSlot [5, 0, 1, 0, 3, 0, 0]) (with5 (title .ready) calm)
      ∧ takes .claimSlot f (paged .ready (with5 (title .ready) calm))
      ∧ (takes .claimSlot f (allSlots .ready (with5 (title .ready) calm))
          ∧ ∀ i : Fin 28, (allSlots .ready (with5 (title .ready) calm)).pm.slots[i].state ≠ .free)
      ∧ takes .claimSlot f (with5 (title .ready) calm))
    ∧ (let f := good .completeSlot [0, 5, 0, 1, 0, 2]
      takes .completeSlot f calm ∧ takes .completeSlot f (paged .ready calm) ∧ takes .completeSlot f (paged .filling calm)
        ∧ field (Frame.body f) 0 1 = 0)
    ∧ field (Frame.body (good .freeSlot [27])) 0 1 = 27
    ∧ (∀ state ∈ [PageSlotState.free, .filling, .ready, .shown], takes .freeSlot (good .freeSlot [27]) (allSlots state calm)
        ∧ ((allSlots state calm).recordAt 6).state ≠ .retiring) := by
  unfold takes; decide +kernel

theorem test_meets_Slots_outOfRange :
    ∀ n ∈ [(28 : Byte), 255], 28 ≤ field (Frame.body (good .freeSlot [n])) 0 1 ∧ takes .freeSlot (good .freeSlot [n]) calm
      ∧ 28 ≤ field (Frame.body (good .completeSlot [n, 5, 0, 1, 0, 2])) 0 1
      ∧ takes .completeSlot (good .completeSlot [n, 5, 0, 1, 0, 2]) calm := by
  unfold takes; decide +kernel

theorem test_meets_Slots_numbers : numbersGiven (paged .filling calm) ∧ numbersGiven (allSlots .ready calm) :=
  ⟨numbersGiven_of (by decide +kernel), numbersGiven_of (by decide +kernel)⟩

/-- WRITE PIXELS of a frame and a rectangle. -/
def pixelFrame (frame x w h : Byte) : Frame :=
  good .writePixels ([frame, x, 0, 0, 0, w, 0, h, 0] ++ List.replicate (w.toNat * h.toNat / 2) 0x5A)

/-- Lane 0 is in a state, with a source frame, the top left 8 by 4 pixels, a mode and a requester. -/
def laned (state : LaneState) (source : Nat) (mode : Mode) : State :=
  setLane 0
    { Lane.blank with state := state, source := source, rect := ⟨0, 0, 8, 4⟩, mode := mode, requesters := [0] }
    { calm with link.nextId := 1, link.outstanding := [⟨0, 4, .updateRegion, false⟩] }

theorem test_meets_WritePixels :
    (takes .writePixels (pixelFrame 0 0 8 4) calm ∧ takes .writePixels (pixelFrame 32 0 8 4) calm)
      ∧ takes .writePixels (pixelFrame 1 4 8 4) calm
      ∧ takes .writePixels (good .writePixels ([1, 0x90, 6, 0, 0, 8, 0, 4, 0] ++ List.replicate 16 0)) calm
      ∧ takes .writePixels (pixelFrame 31 0 8 4) calm
      ∧ (takes .writePixels (pixelFrame 4 0 8 4) (paged .filling calm) ∧ (paged .filling calm).pm.errors = [])
      ∧ takes .writePixels (good .writePixels ([1, 0x88, 6, 0xDC, 4, 8, 0, 4, 0] ++ List.replicate 16 0)) calm
      ∧ (takes .writePixels (pixelFrame 1 0 8 4) (laned .loading 1 .mono)
          ∧ (laned .loading 1 .mono).panel.lanes[(0 : Fin 4)].state = .loading) := by
  unfold takes; decide +kernel

/-! ### Premises: turning -/

/-- The Turn Engine is on page 1 of handle 5, with pages 1 and 2 in slots 0 and 1. -/
def turning (state : TurnState) : State :=
  let s := with5 (title .ready) calm
  { s with
    turn := { TurnEngine.blank with state := state, title := 5, page := 1 }
    pm.slots := (s.pm.slots.set 0 ⟨.shown, 5, 1, 2, false, .grey16⟩).set 1 ⟨.ready, 5, 2, 2, false, .grey16⟩ }

/-- A turn to page 2 is in flight, its show not yet made. -/
def inFlight (s : State) : State := { s with turn.flight := some ⟨1, 2, .fwd, .key ⟨.fwd, 0, 0, false⟩, false, false, false⟩ }

theorem test_meets_ShowSlot :
    (∀ state ∈ [TurnState.turning, .stopped, .pass], (inFlight (turning state)).powered = true)
      ∧ ((inFlight (turning .turning)).pm.slots[(1 : Fin 28)] = ⟨.ready, 5, 2, 2, false, .grey16⟩
          ∧ (inFlight (turning .turning)).panel.halted = false
          ∧ (inFlight (turning .turning)).pm.slots[(0 : Fin 28)].state = .shown
          ∧ ∀ j : Fin 28, (inFlight (turning .turning)).pm.slots[j].state = .shown → j = 0)
      ∧ (∀ i : Fin 28, (setSlot 0 PageSlot.blank (inFlight (turning .turning))).pm.slots[i].state ≠ .shown)
      ∧ (setSlot 1 PageSlot.blank (inFlight (turning .turning))).pm.slots[(1 : Fin 28)].state ≠ .ready
      ∧ (turning .turning).turn.keyQueue.length < 8 ∧ (turning .turning).turn.owed = 0 := by
  decide +kernel

theorem test_meets_GiveUp_halted :
    (let s := { setSlot 0 PageSlot.blank (inFlight (turning .turning)) with panel.halted := true }
    s.powered = true ∧ s.panel.halted = true ∧ s.pm.slots[(1 : Fin 28)].state = .ready
      ∧ ∀ i : Fin 28, s.pm.slots[i].state ≠ .shown)
    ∧ (∀ origin ∈ [TurnOrigin.key ⟨.fwd, 0, 0, false⟩, .owed .back, .goTo 0],
      let s := { turning .turning with turn.flight := some ⟨1, 2, .fwd, origin, false, true, false⟩ }
      s.powered = true ∧ s.pm.slots[(1 : Fin 28)].state = .ready
        ∧ s.turn.flight = some ⟨1, 2, .fwd, origin, false, true, false⟩)
    ∧ (let s := setSlot 0 PageSlot.blank { turning .turning with
        turn.title := 6, turn.flight := some ⟨1, 2, .fwd, .owed .fwd, false, false, true⟩ }
      s.pm.slots[(1 : Fin 28)].state = .ready ∧ ∀ i : Fin 28, s.pm.slots[i].state ≠ .shown)
    ∧ ordersGiven (inFlight (turning .turning))
    ∧ ((inFlight (turning .turning)).recordAt 5).state = .ready := by
  unfold ordersGiven; decide +kernel

theorem test_meets_GiveUpAndTrailingRelease :
    ({ turning .ready with turn.giveUps := [0], turn.trailing := [[1]] } : State).powered = true
      ∧ ((turning .ready).recordAt ((turning .ready).pm.slots[(0 : Fin 28)]).handle).state ≠ .retiring
      ∧ ((turning .ready).recordAt ((turning .ready).pm.slots[(1 : Fin 28)]).handle).state ≠ .retiring
      ∧ calm.turn.giveUps = [] ∧ calm.turn.trailing = [] := by
  decide +kernel

/-- A full host key queue. -/
def fullKeys (s : State) : State :=
  { s with turn.keyQueue := List.replicate 8 ⟨⟨.fwd, 0, 0, false⟩, .passed⟩ }

theorem test_meets_KeyEvents :
    (∀ key ∈ [Key.fwd, .back, .light, .power], ∀ state ∈ [TurnState.off, .pass, .stopped, .turning, .ready],
        (turning state).powered = true ∧ (turning state).power.state = .active ∧ (turning state).power.entry = none
          ∧ (turning state).keys.pressed key = false)
      ∧ (turning .ready).lookupPage 2 = some 1 ∧ (turning .ready).pm.slots[(1 : Fin 28)].fence = false
      ∧ 2 = (turning .ready).turn.page + 1 ∧ 8 ≤ (fullKeys calm).turn.keyQueue.length
      ∧ ({ calm with keys.fwd := true } : State).keys.pressed .fwd = true ∧ calm.power.state ≠ .bringup := by
  decide +kernel

/-- The slot of page 2 has the fence set. -/
def fenced (s : State) : State := setSlot 1 ⟨.ready, 5, 2, 2, true, .grey16⟩ s

theorem test_meets_KeyEvents_ready :
    lookupStops (turning .ready) 0 .miss .missed ∧ lookupStops (fenced (turning .ready)) 2 .fence .fenced
      ∧ (turning .ready).turn.page = 0 + 1
      ∧ ({ turning .ready with turn.page := 65535 } : State).turn.state = .ready
      ∧ ({ turning .ready with turn.page := 0 } : State).turn.page = 0 := by
  refine ⟨Or.inl ⟨by decide +kernel, rfl, rfl⟩, Or.inr ⟨⟨1, by decide +kernel, by decide +kernel⟩, rfl, rfl⟩, ?_⟩
  decide +kernel

theorem test_meets_KeyEvents_asleep :
    (dormant.powered = true ∧ dormant.power.state = .dormant ∧ dormant.power.entry = none ∧ dormant.power.heldDue = false)
      ∧ (∀ key ∈ [Key.fwd, .back, .power], dormant.keyArmed key = true ∧ dormant.keys.pressed key = false)
      ∧ dormant.keyArmed .light = false
      ∧ ({ dormant with keep.arming := 0xFFFF } : State).keyArmed .light = true
      ∧ ({ dormant with power.heldDue := true } : State).power.heldDue = true
      ∧ ({ calm with power := { calm.power with entry := some .dormant, step := some .lanes } } : State).power.entry.isSome
        = true
      ∧ (reading.power.state = .reading ∧ reading.power.entry = none) := by
  decide

theorem test_meets_ReadKeys :
    ∀ n ∈ [(0 : Byte), 1, 8, 9], takes .readKeys (good .readKeys [n]) (fullKeys calm) := by
  unfold takes; decide +kernel

theorem test_meets_SetCurrentTitle :
    let f := good .setCurrentTitle [5, 0, 9, 0]
    takes .setCurrentTitle (good .setCurrentTitle [0, 0, 9, 0]) calm ∧ takes .setCurrentTitle f (inFlight (turning .turning))
      ∧ takes .setCurrentTitle f (with5 (title .expired) (turning .stopped))
      ∧ takes .setCurrentTitle f (with5 (title .retiring) (turning .stopped))
      ∧ takes .setCurrentTitle f (turning .ready) ∧ takes .setCurrentTitle f (with5 (title .ready) calm) := by
  intro f; unfold takes; decide +kernel

/-- A title change to handle 5 waits for its hold. -/
def changing (r : TitleRecord) : State :=
  { with5 r calm with
    turn.change := some ⟨5, 9, 0⟩
    link.nextId := 1
    link.outstanding := [⟨0, 3, .setCurrentTitle, false⟩] }

theorem test_meets_TurnEngineReachesTheCatalogue :
    (∀ r ∈ [title .ready, { title .ready with holds := 14 }, { title .ready with holds := 15 }, title .expired, title .retiring],
        (changing r).powered = true ∧ (changing r).turn.change = some ⟨5, 9, 0⟩ ∧ (changing r).recordAt 5 = r
          ∧ (changing r).awaiting 0 = some ⟨0, 3, .setCurrentTitle, false⟩)
      ∧ (let s := inFlight (changing (title .ready))
        s.powered = true ∧ s.turn.change = some ⟨5, 9, 0⟩ ∧ s.recordAt 5 = title .ready ∧ s.turn.flight.isSome = true)
      ∧ (({ with5 (title .ready) calm with turn.releases := [5] } : State).recordAt 5).state = .ready
      ∧ 2 ≤ (({ with5 { title .expired with holds := 2 } calm with turn.releases := [5] } : State).recordAt 5).holds
      ∧ ({ with5 (title .retiring) calm with turn.positions := [⟨5, 3⟩] } : State).turn.positions = ⟨5, 3⟩ :: []
      ∧ (({ with5 (title .retiring) calm with turn.positions := [⟨5, 3⟩] } : State).recordAt 5).state = .retiring
      ∧ validHandle 5 = true := by
  decide +kernel

/-- Pass-through is on. -/
def passing (r : TitleRecord) : State :=
  { with5 r (turning .pass) with turn.passThrough := true }

theorem test_meets_ClearResumeAndPassThrough :
    takes .clearCurrentTitle (good .clearCurrentTitle []) calm
      ∧ takes .clearCurrentTitle (good .clearCurrentTitle []) (turning .ready)
      ∧ takes .resumeTurning (good .resumeTurning []) (turning .ready)
      ∧ takes .resumeTurning (good .resumeTurning []) (turning .stopped)
      ∧ (∀ b ∈ [(0 : Byte), 1], takes .setPassThrough (good .setPassThrough [b]) (turning .turning)
          ∧ takes .setPassThrough (good .setPassThrough [b]) (passing (title .ready))
          ∧ takes .setPassThrough (good .setPassThrough [b]) (passing (title .expired))
          ∧ flagField (Frame.body (good .setPassThrough [b])) 0 = some (b == 1))
      ∧ takes .setPassThrough (good .setPassThrough [0]) { calm with turn.passThrough := true, turn.state := .pass }
      ∧ (turning .turning).turn.keyQueue.length + (turning .turning).turn.owed.natAbs ≤ 8 := by
  unfold takes; decide +kernel

theorem test_meets_GoToPage :
    takes .goToPage (good .goToPage [28]) calm ∧ takes .goToPage (good .goToPage [27]) calm
      ∧ takes .goToPage (good .goToPage [1]) (with5 (title .expired) (turning .stopped))
      ∧ takes .goToPage (good .goToPage [1]) (with5 (title .retiring) (turning .stopped))
      ∧ takes .goToPage (good .goToPage [0]) (turning .ready) ∧ takes .goToPage (good .goToPage [1]) (turning .ready)
      ∧ (turning .ready).pm.slots[(1 : Fin 28)].generation = ((turning .ready).recordAt 5).generation := by
  unfold takes; decide +kernel

/-! ### Premises: the panel -/

/-- UPDATE REGION in GREY16. -/
def updateFrame (source x w : Byte) : Frame := good .updateRegion [source, x, 0, 0, 0, w, 0, 4, 0, 1, 0]

/-- A number of HOST entries is queued, apart from one another, each with one requester that a link reset has detached. -/
def queued (n : Nat) : State :=
  { calm with
    panel.nextOrder := n
    panel.queue := (List.range n).map fun i => ⟨1, ⟨0, 8 * i, 8, 4⟩, .grey16, false, .host, i, [0], none⟩
    link.nextId := 1 }

theorem test_meets_UpdateRegion :
    (takes .updateRegion (updateFrame 0 0 8) calm ∧ takes .updateRegion (updateFrame 32 0 8) calm)
      ∧ takes .updateRegion (updateFrame 1 4 8) calm
      ∧ takes .updateRegion (good .updateRegion [1, 0x90, 6, 0, 0, 8, 0, 4, 0, 1, 0]) calm
      ∧ takes .updateRegion (updateFrame 31 0 8) calm
      ∧ takes .updateRegion (updateFrame 1 0 8) { calm with panel.halted := true }
      ∧ (takes .updateRegion (updateFrame 1 16 8) (queued 15)
          ∧ (queued 15).mergeTarget ⟨1, ⟨16, 0, 8, 4⟩, .grey16, false⟩ = none
          ∧ 15 ≤ ((queued 15).panel.queue.filter fun e => e.origin == .host).length)
      ∧ (takes .updateRegion (updateFrame 1 16 8) (queued 14)
          ∧ (queued 14).mergeTarget ⟨1, ⟨16, 0, 8, 4⟩, .grey16, false⟩ = none)
      ∧ (takes .updateRegion (updateFrame 1 8 8) (queued 1)
          ∧ (queued 1).mergeTarget ⟨1, ⟨8, 0, 8, 4⟩, .grey16, false⟩
            = some ⟨1, ⟨0, 0, 8, 4⟩, .grey16, false, .host, 0, [0], none⟩) := by
  unfold takes; decide +kernel

theorem test_meets_UpdateRegion_orders : ordersGiven (queued 15) ∧ modeField [0, 0, 0, 0, 0, 0, 0, 0, 0, 1] 9 = some .grey16 := by
  unfold ordersGiven; decide +kernel

/-- In CRITICAL, an erase has the port under its claim of 25: the claim of a CLEAR does not fit beside it. -/
def spent : State :=
  { calm with
    port.phase := .busy ⟨3, false, .erase 1 5 0 8⟩
    power := { calm.power with band := .critical, granted := [⟨.port, 25⟩] }
    light := { calm.light with allowance := 55 } }

theorem resourcesSettled_spent : resourcesSettled spent :=
  resourcesSettled_of rfl rfl rfl (by unfold lightAims; decide) (by decide) (by decide) (by decide) (by decide) (by decide)
    (by decide) (by decide) (fun h => absurd h (by decide)) (fun h => absurd h (by decide))

theorem test_meets_UpdateRegion_admission :
    resourcesSettled calm ∧ resourcesSettled spent
      ∧ ∀ s ∈ [calm, spent], takes .updateRegion (updateFrame 1 0 8) s ∧ s.unloadDue = false ∧ s.awake = true
        ∧ s.panel.queue = [] ∧ s.power.waiting = [] ∧ (∀ i : Fin 4, s.panel.lanes[i].state = .idle)
        ∧ s.panel.halted = false ∧ (s.grantedSum + 60 ≤ s.ceiling ↔ s.grantedSum = 0) :=
  ⟨resourcesSettled_calm, resourcesSettled_spent, by unfold takes; decide +kernel⟩

/-- The request with tag 4 has a queued update. -/
def queuedFor : State := { queued 1 with link.outstanding := [⟨0, 4, .updateRegion, false⟩] }

theorem test_meets_CancelUpdates :
    takes .cancelUpdates (good .cancelUpdates [16]) calm
      ∧ (takes .cancelUpdates (good .cancelUpdates [15]) calm ∧ calm.requestTagged 15 = none)
      ∧ (takes .cancelUpdates (good .cancelUpdates [4]) queuedFor ∧ queuedFor.requestTagged 4 = some 0
          ∧ (queuedFor.panel.queue.find? fun e => e.requesters.contains 0).isSome = true)
      ∧ (takes .cancelUpdates (good .cancelUpdates [4]) (laned .driving 1 .mono)
          ∧ (laned .driving 1 .mono).requestTagged 4 = some 0 ∧ (laned .driving 1 .mono).panel.queue = [])
      ∧ (takes .cancelUpdates (good .cancelUpdates [4]) (setLane 0 Lane.blank (laned .driving 1 .mono))
          ∧ (setLane 0 Lane.blank (laned .driving 1 .mono)).requestTagged 4 = some 0) := by
  unfold takes; decide +kernel

theorem test_meets_CancelUpdates_numbers : numbersGiven queuedFor ∧ numbersGiven (laned .driving 1 .mono) :=
  ⟨numbersGiven_of (by decide +kernel), numbersGiven_of (by decide +kernel)⟩

/-- A lane loads slot 0, whose first word cannot be recovered. -/
def badSource : State :=
  { laned .loading 4 .clear with
    pm := { PageMemory.blank with
      errors := [⟨4 * 131072, .double⟩]
      slots := PageMemory.blank.slots.set 0 ⟨.ready, 5, 1, 2, false, .grey16⟩ } }

theorem test_meets_LaneLoadEnds :
    (∀ mode ∈ [Mode.clear, .mono], (laned .loading 1 mode).powered = true ∧ (laned .loading 1 mode).power.entry = none
        ∧ (laned .loading 1 mode).pm.errors = [] ∧ (laned .loading 1 mode).pm.held = []
        ∧ (laned .loading 1 mode).panel.halted = false)
      ∧ badSource.powered = true ∧ badSource.loadErrors 4 ⟨0, 0, 8, 4⟩ .double = true
      ∧ badSource.settings.reportCorrected = false ∧ badSource.pm.slots[(0 : Fin 28)].state = .ready
      ∧ (badSource.recordAt 5).state ≠ .retiring := by
  decide +kernel

/-- The TURN update of a turn to page 2 is on lane 1; slot 0 was SHOWN before it. -/
def turnLane (state : LaneState) (origin : TurnOrigin) : State :=
  let s := setSlot 1 ⟨.shown, 5, 2, 2, false, .grey16⟩ (setSlot 0 ⟨.ready, 5, 1, 2, false, .grey16⟩ (turning .turning))
  setLane 1 { Lane.blank with state := state, source := 5, rect := Rect.panel, mode := .grey16, origin := .turn }
    { s with turn := { s.turn with flight := some ⟨1, 2, .fwd, origin, true, false, false⟩, lastShow := some 1 } }

theorem test_meets_TurnLanes :
    let lost := fun s : State => { s with pm.errors := [⟨5 * 131072, .double⟩] }
    (∀ origin ∈ [TurnOrigin.key ⟨.fwd, 0, 0, false⟩, .owed .back, .goTo 0],
      let s := turnLane .loading origin
      s.powered = true ∧ s.panel.lanes[(1 : Fin 4)].origin = .turn ∧ s.panel.lanes[(1 : Fin 4)].requesters = []
        ∧ s.turn.flight = some ⟨1, 2, .fwd, origin, true, false, false⟩ ∧ s.pm.errors = [] ∧ s.pm.held = []
        ∧ ({ s with panel.halted := true } : State).panel.halted = true
        ∧ (lost s).loadErrors 5 Rect.panel .double = true ∧ (lost s).loadErrors 0 Rect.panel .double = false
        ∧ s.pm.slots[(1 : Fin 28)].state = .shown ∧ (s.recordAt 5).state ≠ .retiring)
      ∧ ({ laned .loading 1 .mono with panel.halted := true } : State).panel.lanes[(0 : Fin 4)].origin = .host
      ∧ (let s := setSlot 0 ⟨.shown, 5, 1, 2, false, .grey16⟩ badSource
        s.pm.slots[(0 : Fin 28)].state = .shown ∧ s.panel.queue = [] ∧ s.turn.flight = none) := by
  decide +kernel

theorem test_meets_TurnLanes_end :
    (let s := { turnLane .loaded (.owed .fwd) with panel.supply := SupplyState.rising }
    s.powered = true ∧ s.panel.supply = .rising ∧ s.panel.lanes[(1 : Fin 4)].state = .loaded)
      ∧ (let s := turnLane .settling (.key ⟨.fwd, 0, 0, false⟩)
        s.panel.lanes[(1 : Fin 4)].state = .settling ∧ s.pm.errors = [] ∧ s.turn.owed = 0 ∧ s.turn.state = .turning)
      ∧ (let s := { turnLane .settling (.key ⟨.fwd, 0, 0, false⟩) with turn.owed := (-1 : Int) }
        s.turn.flight.isSome = true ∧ (2 : Nat) = 1 + 1)
      ∧ lookupStops (turnLane .settling (.goTo 0)) 3 .miss .missed := by
  refine ⟨by decide +kernel, by decide +kernel, by decide +kernel, Or.inl ⟨by decide +kernel, rfl, rfl⟩⟩

theorem test_meets_PanelSupply :
    (let s := { laned .loaded 1 .mono with panel.supply := SupplyState.rising }
    s.powered = true ∧ s.power.entry = none ∧ s.power.dormantDelay ≠ .deferred
      ∧ s.panel.lanes[(0 : Fin 4)].state = .loaded)
      ∧ calm.panel.supply ≠ .rising
      ∧ ({ calm with panel.supply := .on, panel.offDelay := .running 0 } : State).panel.offDelay.isRunning = true
      ∧ FaultRecord.holdsSevere ⟨some ⟨.flashWrite, none, 0, false⟩, false, false⟩ = true := by
  decide +kernel

theorem test_meets_LanesComplete :
    (laned .driving 1 .mono).powered = true ∧ (laned .driving 1 .mono).power.entry = none
      ∧ (∀ mode ∈ [Mode.clear, .grey16, .mono, .sketch],
          (laned .settling 1 mode).panel.lanes[(0 : Fin 4)].origin = .host ∧ (laned .settling 1 mode).pm.errors = [])
      ∧ calm.panel.queue = [] := by
  decide +kernel

/-! ### Premises: light and power -/

theorem test_meets_Light :
    (∀ b ∈ [[32, 0, 0, 0, 0], [31, 0, 128, 0, 0], [31, 255, 127, 0, 3], [31, 255, 127, 1, 2], [0, 0, 0, 0, 0], [0, 0, 0, 0, 1]],
        takes .setLight (good .setLight b) calm)
      ∧ flagField [31, 255, 127, 1, 2] 3 = some true ∧ calm.powered = true ∧ calm.power.entry = none
      ∧ ({ calm with light.ramp := .running 0, light.autoDim := .running 0, light.lightOff := .running 0 } : State).light.ramp.isRunning
        = true := by
  unfold takes; decide +kernel

theorem test_meets_ReadingAndActive :
    takes .enterReading (good .enterReading []) reading ∧ takes .enterReading (good .enterReading []) calm
      ∧ takes .resumeActive (good .resumeActive []) calm ∧ takes .resumeActive (good .resumeActive []) reading
      ∧ takes .resumeActive (good .resumeActive []) dormant
      ∧ takes .resumeActive (good .resumeActive []) { dormant with power.heldDue := true }
      ∧ takes .resumeActive (good .resumeActive [])
          { dormant with power.heldDue := true, power.heldWake := some (.resume ⟨0, 3⟩), link.nextId := 1 } := by
  unfold takes; decide +kernel

theorem test_meets_ReadingAndActive_numbers :
    numbersGiven calm ∧ numbersGiven reading ∧ numbersGiven dormant ∧ shelfWaits dormant ∧ shelfWaits calm
      ∧ numbersGiven { dormant with power.heldDue := true, power.heldWake := some (.resume ⟨0, 3⟩), link.nextId := 1 } :=
  ⟨numbersGiven_of (by decide +kernel), numbersGiven_of (by decide +kernel), numbersGiven_of (by decide +kernel),
    (fun h => absurd h (by decide)), (fun h => absurd h (by decide)), numbersGiven_of (by decide +kernel)⟩

theorem test_meets_DormantEntryBegins :
    takes .enterDormant (good .enterDormant []) calm ∧ calm.power.entry = none
      ∧ ({ reading with power.dormantDelay := .running 0 } : State).power.state = .reading
      ∧ (let s := { fetching (transfer .receiving) with power := { reading.power with transfersActive := true } }
        s.anyTransfer = true ∧ s.power.transfersActive = true) := by
  unfold takes; decide +kernel

/-- The light, switched off, is on its way down. -/
def fading : State := { calm with light.warmOutput := 5, light.ramp := .running 1, power.lightClaim := 1 }

/-- The unload of sector 0 is due at the next event. -/
def unloadAged (s : State) : State := { s with wb.queue := [⟨0, 0⟩], wb.elapsed := 1000000000 }

/-- READING in CRITICAL under a granted boost, with the light on its way from warm to cool: its claim is 50. -/
def swapping : State :=
  { reading with
    settings.capCritical := 32767
    power := { reading.power with
      band := .critical, turnBoost := true, granted := [⟨.boost, 15⟩], lightClaim := 50 }
    light := { Light.blank with
      switch := true, level := 31, warmth := 0, warmOutput := 1021, coolTarget := 1021, allowance := 65
      ramp := .running 1 } }

/-- The states from which an entry goes as far as its first, second, third and fourth step, and to DORMANT with each end of
its flush. -/
def entryStarts : List State :=
  [driving, fading,
    { calm with port.phase := .busy ⟨5, false, .verifyRead 1 524288 16⟩ }, { calm with wb.queue := [⟨0, 0⟩] },
    { calm with wb.halted := true }, calm]

theorem test_meets_DormantEntryBegins_steps :
    (∀ s ∈ entryStarts, resourcesSettled s ∧ s.power.entry = none ∧ takes .enterDormant (good .enterDormant []) s
        ∧ numbersFresh s)
      ∧ entryStarts.map (fun s => (s.anyBusy, decide (s.light.warmOutput ≠ 0), (s.granted.map FlashJob.isDownload).getD false,
          s.wb.halted, s.wb.queue.isEmpty)) =
        [(true, false, false, false, true), (false, true, false, false, true), (false, false, true, false, true),
          (false, false, false, false, false), (false, false, false, true, true), (false, false, false, false, true)] := by
  refine ⟨fun s m => ⟨resourcesSettled_of ?_ ?_ ?_ ?_ ?_ ?_ ?_ ?_ ?_ ?_ ?_ ?_ ?_, ?_, ?_, ?_⟩, by decide +kernel⟩
  all_goals (revert s; try unfold lightAims); (try unfold takes); (try unfold numbersFresh)
  all_goals first
    | decide +kernel
    | (intro s m e; exact absurd e (by revert s; decide))

theorem test_meets_DormantEntryBegins_light :
    (∀ s ∈ [unloadAged fading, unloadAged swapping], resourcesSettled s ∧ s.power.entry = none
        ∧ takes .enterDormant (good .enterDormant []) s ∧ s.anyBusy = false ∧ s.light.warmOutput ≠ 0 ∧ s.unloadDue = true)
      ∧ lightKeepsClaim (unloadAged fading) ∧ ¬lightKeepsClaim (unloadAged swapping) := by
  refine ⟨fun s m => ⟨resourcesSettled_of ?_ ?_ ?_ ?_ ?_ ?_ ?_ ?_ ?_ ?_ ?_ ?_ ?_, ?_⟩, ?_, ?_⟩
  all_goals (first | revert s | skip); (try unfold lightAims); (try unfold takes); (try unfold lightKeepsClaim)
  all_goals first
    | decide +kernel
    | (intro s m e; exact absurd e (by revert s; decide))

/-- There the claim of the sector write takes the light's room: the outputs fall at once, and the entry waits for the flush. -/
theorem test_enterDormant_dropsLight :
    (match exec (.enterDormant (good .enterDormant [])) (unloadAged swapping) with
      | .next t => some (t.power.step, t.light.warmOutput, t.light.coolOutput, t.power.granted)
      | _ => none) = some (some .flush, 0, 0, [⟨.boost, 15⟩, ⟨.port, 25⟩]) := by
  decide +kernel

theorem test_meets_DormantEntryBegins_goesOn :
    resourcesSettled entering ∧ requestsSound entering ∧ entering.power.entry = some .dormant
      ∧ step entering = .next (tick entering) :=
  ⟨resourcesSettled_entering, requestsSound_of (by decide +kernel) (by unfold ordersGiven; decide) (by decide) rfl, rfl, rfl⟩

theorem test_meets_EnterShelf :
    let f := good .enterShelf []
    takes .enterShelf f { dormant with power.entry := some .shelf }
      ∧ takes .enterShelf f { dormant with power.heldDue := true } ∧ takes .enterShelf f calm ∧ takes .enterShelf f reading
      ∧ takes .enterShelf f dormant ∧ (dormant.port.phase = .idle ∧ dormant.port.waiting = [] ∧ dormant.wb.queue = [])
      ∧ takes .enterShelf f { dormant with wb.halted := true } ∧ takes .enterShelf f { dormant with wb.queue := [⟨0, 0⟩] } := by
  intro f; unfold takes; decide +kernel

/-- DORMANT with a wake held. -/
def heldDormant (w : Option Wake) : State := { dormant with power.heldDue := true, power.heldWake := w }

theorem test_meets_HeldAction :
    dormant.powered = true ∧ dormant.power.state = .dormant ∧ dormant.power.entry = none ∧ dormant.power.heldDue = false
      ∧ (∀ w ∈ [Wake.key ⟨.power, 0, 0, false⟩, .alarm, .resume ⟨0, 3⟩], (heldDormant (some w)).power.heldDue = true
          ∧ (heldDormant (some w)).power.dueExhausted = false)
      ∧ ({ heldDormant none with power.dueTimer := true, wb.queue := [⟨0, 0⟩] } : State).wb.queue ≠ []
      ∧ ({ heldDormant (some .alarm) with power.dueExhausted := true, wb.queue := [⟨0, 0⟩] } : State).wb.halted = false := by
  decide +kernel

/-- DORMANT with requests for SHELF behind it: one that the entry was asked for by, or one held. -/
def shelfAsked (cause : List EntryCause) (held : Option HeldRequest) (s : State) : State :=
  { s with power := { s.power with dormantCauses := cause, heldShelf := held, heldDue := true } }

theorem test_meets_HeldAction_shelf :
    (∀ s ∈ [shelfAsked [.enterShelf ⟨0, 3⟩] none dormant, shelfAsked [.battery] (some ⟨0, 3⟩) dormant],
      s.powered = true ∧ s.power.state = .dormant ∧ s.power.entry = none ∧ s.power.heldDue = true
        ∧ s.power.dueExhausted = false ∧ s.power.heldWake = none ∧ s.shelfWanted ≠ []
        ∧ (s.wb.halted = false ∧ s.wb.queue = [] ∧ s.wb.inFlight = none ∧ s.running = none)
        ∧ ({ s with wb.queue := [⟨0, 0⟩] } : State).wb.queue ≠ [] ∧ ({ s with wb.halted := true } : State).wb.halted = true)
      ∧ (heldDormant none).shelfWanted = []
      ∧ (let s := { heldDormant (some (.resume ⟨0, 3⟩)) with wb.halted := true }
        ({ s with power.dueExhausted := true } : State).power.heldWake = some (.resume ⟨0, 3⟩)) := by
  decide

/-- The time is valid, at 100. -/
def timed : State := { calm with keep := { calm.keep with seconds := 100, valid := true } }

theorem test_meets_ArmingTimeAndAlarm :
    (takes .armWake (good .armWake [0xFF, 0xFF]) calm ∧ takes .armWake (good .armWake [0xFF, 0xFF])
        { calm with settings.capability := 0x2000 })
      ∧ (takes .setTime (good .setTime [9, 0, 0, 0]) calm ∧ calm.cat.expiryList = [] ∧ calm.keep.alarm = none)
      ∧ (takes .setAlarm (good .setAlarm [1, 101, 0, 0, 0]) calm ∧ takes .setAlarm (good .setAlarm [1, 101, 0, 0, 0]) timed
          ∧ takes .setAlarm (good .setAlarm [0, 0, 0, 0, 0]) calm
          ∧ optionField [1, 101, 0, 0, 0] 0 4 = some (some 101) ∧ optionField [0, 0, 0, 0, 0] 0 4 = some none)
      ∧ (calm.keep.powered = true ∧ ({ calm with keep.powered := false } : State).keep.powered = false)
      ∧ ({ timed with keep.alarm := some 101 } : State).awake = true
      ∧ (∀ due ∈ [true, false],
        let s := { dormant with keep := { timed.keep with alarm := some 101 }, power.heldDue := due }
        s.powered = true ∧ s.keep.valid = true ∧ s.keep.powered = true ∧ s.power.state = .dormant
          ∧ s.power.entry = none ∧ s.power.heldDue = due ∧ s.keep.alarm = some (s.keep.seconds + 1)) := by
  unfold takes; decide +kernel

/-- The title at handle 5 is due at the next second. -/
def dueNext : State := { with5 { title .ready with expiry := some 101 } timed with cat.expiryList := [5] }

theorem test_meets_DueTitleExpires :
    ({ with5 { title .ready with expiry := some 101 } timed with cat.expiryList := [5] } : State).powered = true
      ∧ dueNext.power.state ≠ .bringup ∧ dueNext.keep.powered = true ∧ dueNext.keep.alarm = none
      ∧ dueNext.heldNumbers = [] ∧ dueNext.settings.retireOnExpiry = false
      ∧ (dueNext.recordAt 5).expiry = some (dueNext.keep.seconds + 1) := by
  decide +kernel

/-- A read of handle 5 waits for request 0, and an update from its READY slot for another request. -/
def busyTitle (other : Nat) (s : State) : State :=
  { paged .ready s with
    cat.reads := [⟨0, 5, false, 1, []⟩]
    panel.queue := [⟨4, ⟨0, 0, 8, 4⟩, .mono, false, .host, 0, [other], none⟩]
    panel.nextOrder := 1
    link.nextId := 2
    link.outstanding := [⟨0, 3, .readTitleBytes, false⟩, ⟨1, 4, .updateRegion, false⟩] }

theorem test_meets_neighboursTold :
    (numbersApart (busyTitle 1 dueNext) ∧ ¬numbersApart (busyTitle 0 dueNext))
      ∧ ((busyTitle 1 dueNext).pm.slots[(0 : Fin 28)].state = .ready ∧ (busyTitle 1 dueNext).pm.slots[(0 : Fin 28)].handle = 5)
      ∧ (busyTitle 1 dueNext).awaiting 0 = some ⟨0, 3, .readTitleBytes, false⟩
      ∧ (busyTitle 1 dueNext).awaiting 1 = some ⟨1, 4, .updateRegion, false⟩ := by
  unfold numbersApart; decide +kernel

theorem test_meets_DueTitleExpires_fetching :
    let s := setTransfer 0 (transfer .receiving) (with5 { title .fetching with expiry := some 101 } dueNext)
    s.powered = true ∧ (s.recordAt 5).state = .fetching ∧ (s.recordAt 5).expiry = some 101 ∧ s.cat.expiryList = [5]
      ∧ s.slotOf 5 = some 0 := by
  decide +kernel

theorem test_meets_Charger :
    (∀ entry ∈ [none, some .dormant], true ≠ calm.power.charger
        ∧ ({ calm with power := { calm.power with entry := entry, step := some .lanes } } : State).power.entry ≠ some .shelf)
      ∧ true ≠ shelving.power.charger ∧ shelving.power.entry = some .shelf ∧ shelving.power.shelfFlush = none := by
  decide

theorem test_meets_BatteryAndCharger :
    (calm.powered = true ∧ calm.power.entry = none ∧ candidateBand .normal 3600 = .normal ∧ candidateBand .normal 3599 = .low
        ∧ candidateBand .normal 3449 = .critical ∧ candidateBand .normal 3299 = .exhausted
        ∧ candidateBand .low 3639 = .low ∧ candidateBand .low 3640 = .normal)
      ∧ ({ calm with power.bandCount := 2 } : State).power.bandCount = 2 ∧ true ≠ calm.power.charger
      ∧ (let s := { dormant with wb.queue := [⟨0, 0⟩], power := { dormant.power with bandCount := 2 } }
        s.power.state = .dormant ∧ s.wb.halted = false ∧ s.wb.queue ≠ [] ∧ s.power.retryExhausted = false
          ∧ ({ s with power.heldDue := true } : State).power.heldDue = true
          ∧ ({ s with power.critical := .running 0 } : State).power.critical.isRunning = true)
      ∧ (let s := { calm with power := { calm.power with entry := some .dormant, step := some .flush, bandCount := 2 } }
        s.power.entry = some .dormant ∧ s.power.state ≠ .bringup
          ∧ ({ s with power.critical := .running 0 } : State).power.critical.isRunning = true)
      ∧ (∀ state ∈ [PowerState.bringup, .active, .reading],
          ({ calm with power.state := state, power.critical := .running 0 } : State).power.critical.isRunning = true)
      ∧ ∀ halted ∈ [true, false],
        let s := { dormant with
          wb.halted := halted
          wb.queue := [⟨0, 0⟩]
          power := { dormant.power with band := .exhausted, retryExhausted := true } }
        s.powered = true ∧ s.power.state = .dormant ∧ s.power.entry = none ∧ s.power.heldDue = false
          ∧ s.power.retryExhausted = true ∧ s.power.charger = false ∧ s.power.heldWake = none ∧ s.wb.halted = halted
          ∧ s.wb.queue ≠ [] := by
  decide

/-- A failed SHELF entry of the CRITICAL timer leaves the one that EXHAUSTED has caused due (R171). -/
theorem test_retryStands :
    (shelfEnd { dormant with
      power := { dormant.power with
        retryExhausted := true, entry := some .shelf, shelfCauses := [.criticalTimer], shelfFlush := some .halted } }
      ).power.retryExhausted = true := by
  decide +kernel

/-- Code 1023 drives a sink with 25 mA, code 0 turns it off, and the sinks follow the outputs (R140). -/
theorem test_sinkCurrent :
    sinkCurrent 1023 = 25 ∧ sinkCurrent 0 = 0
      ∧ ({ calm with light.warmOutput := 1023 } : State).sinkCurrents = (25, 0) := by
  decide +kernel

/-! ### Premises: images, resets and bring-up -/

theorem test_meets_ClearFault : takes .clearFault (good .clearFault []) calm := by unfold takes; decide +kernel

/-- `2 * n` bytes of 0. -/
def zeros (n : Nat) : List Byte := List.replicate (2 * n) 0

theorem length_zeros (n : Nat) : (zeros n).length = 2 * n := List.length_replicate

theorem wordsOf_zeros (n : Nat) : wordsOf (zeros n) = List.replicate n 0 := by
  induction n with
  | zero => rfl
  | succ n ih =>
    unfold zeros at ih ⊢
    rw [Nat.mul_succ, List.replicate_succ, List.replicate_succ, List.replicate_succ, wordsOf, ih]
    rfl

/-- A well-formed settings image: the mark, the sum, and zeros. -/
def settingsImage : List Byte := 0x3C :: 0xA5 :: 0x09 :: 0xA5 :: zeros 1022

theorem length_settingsImage : settingsImage.length = 2048 := by
  simp only [settingsImage, List.length_cons, length_zeros]

/-- A valid waveform image of 64 words with every count 1. -/
def waveformImage : List Byte :=
  [0x71, 0x5E, 64, 0] ++ (List.replicate 32 [(1 : Byte), 0]).flatten ++ [0x86, 0xEB] ++ List.replicate 58 0

theorem takes_good (code : RequestCode) (payload : List Byte) (a : code.lengthGood payload = true)
    (d : code.inline = false) : takes code (good code payload) calm := by
  have c : Frame.crcGood code.toNat (good code payload) = true := beq_self_eq_true _
  have g : Frame.flagsGood (good code payload) = true := by
    show ((0 : Byte) &&& 0xFE#8 == 0#8) = true
    decide
  have e : Frame.expects (good code payload) = false := by
    show (0 : Byte).getLsbD 0 = false
    decide
  have b : Frame.body (good code payload) = payload := by
    unfold Frame.body
    rw [e]
    rfl
  have p : (calm.power.state == PowerState.bringup) = false := by decide
  have q : calm.asleep = false := by decide
  have o : calm.link.outstanding = [] := rfl
  refine ⟨by decide, rfl, ?_, ?_⟩
  · unfold State.refusal
    rw [c, g, p, o, d]
    rfl
  · unfold State.portAnswer
    rw [b, a, e, q]
    rfl

theorem test_meets_ImagesAreWritten :
    takes .writeSettings (good .writeSettings (zeros 1024)) calm ∧ settingsWellFormed (zeros 1024) = false
      ∧ takes .writeWaveforms (good .writeWaveforms [0]) calm ∧ waveformValid [0] = false := by
  refine ⟨takes_good _ _ (by show (_ == 2048) = true; rw [length_zeros]; rfl) rfl, ?_, by unfold takes; decide +kernel, by decide⟩
  have w : word (List.replicate 1024 0) 0 = 0 := by rw [List.replicate_succ]; rfl
  unfold settingsWellFormed
  rw [wordsOf_zeros, w]
  rw [show ((0 : Nat) == 0xA53C) = false from rfl, Bool.and_false, Bool.false_and]

theorem test_meets_ImagesAreWritten_good :
    settingsWellFormed settingsImage = true ∧ waveformValid waveformImage = true
      ∧ takes .writeSettings (good .writeSettings settingsImage) calm
      ∧ takes .writeWaveforms (good .writeWaveforms waveformImage) calm := by
  refine ⟨?_, by decide +kernel, takes_good _ _ (by show (_ == 2048) = true; rw [length_settingsImage]; rfl) rfl,
    takes_good _ _ rfl rfl⟩
  have w : wordsOf settingsImage = 0xA53C :: 0xA509 :: wordsOf (zeros 1022) := by
    unfold settingsImage
    rw [wordsOf, wordsOf]
    rfl
  have s : (List.replicate 1022 0).sum = 0 := by rw [List.sum_replicate_nat]
  unfold settingsWellFormed
  rw [w, length_settingsImage, wordsOf_zeros, List.sum_cons, List.sum_cons, s]
  rfl

/-- A write of an image for request 0 has the port. -/
def imaging (job : FlashJob) : State :=
  { calm with
    port := ⟨.busy ⟨4, false, job⟩, []⟩
    link.nextId := 1
    link.outstanding := [⟨0, 3, .writeSettings, false⟩] }

theorem test_meets_ImagesAreWritten_ends :
    ∀ job ∈ [FlashJob.settingsWrite 0 [], .waveformWrite 0 []],
      (imaging job).powered = true ∧ (imaging job).power.entry = none ∧ (imaging job).settings.retireOnExpiry = false
        ∧ (imaging job).running = some job ∧ (imaging job).awaiting 0 = some ⟨0, 3, .writeSettings, false⟩
        ∧ (formSettings (wordsOf [])).retireOnExpiry = false := by
  decide +kernel

theorem test_meets_ResetsBeginBringUp :
    calm.running = none ∧ calm.keep.powered = true ∧ calm.supplies.main = true ∧ calm.power.state ≠ .shelf
      ∧ ({ State.blank with power.state := .shelf } : State).power.state = .shelf
      ∧ ({ calm with keep.powered := false } : State).keep.powered = false := by
  decide

theorem test_meets_ResetsBeginBringUp_cutOff :
    writing.supplies.main = true
      ∧ writing.running = some (.sectorWrite 0 0 (List.replicate 16 Persisted.blank))
      ∧ ∀ job ∈ [FlashJob.settingsWrite 0 [], .waveformWrite 0 [], .erase 1 5 0 8, .program 1 5 2 (16384 * 34) 0],
          (imaging job).running = some job ∧ (imaging job).supplies.main = true := by
  decide +kernel

theorem test_meets_BringUpStepsInOrder :
    (∀ what ∈ [BringupRead.settings, .waveforms, .sector 0, .sector 62, .sector 63],
      let s := { State.reset with port.phase := .busy ⟨0, false, .bringupRead what⟩ }
      s.powered = true ∧ s.power.state = .bringup ∧ s.power.entry = none
        ∧ s.cat.reads = [] ∧ s.turn.title = 0 ∧ (∀ i : Fin 4, s.dl.slots[i].state = .free)
        ∧ ∀ i : Fin 28, s.pm.slots[i].state = .free)
      ∧ (∀ h, (State.reset.recordAt h).holds = 0)
      ∧ ∀ ranOut ∈ [true, false],
        let s := { State.blank with power := { Power.blank with bringup := .pageMemory, criticalRanOut := ranOut } }
        s.powered = true ∧ s.power.state = .bringup ∧ s.power.entry = none ∧ s.keep.alarm = none
          ∧ s.power.criticalRanOut = ranOut := by
  refine ⟨by decide +kernel, fun h => ?_, by decide⟩
  rw [show State.reset.recordAt h = calm.recordAt h from recordAt_congr rfl h, recordAt_calm]
  rfl

theorem test_meets_StepsKeep :
    (requestsSound calm ∧ requestsSound (queued 1)) ∧ linesFollow { calm with pins := ⟨false, true⟩ } ∧ shelfWaits calm
      ∧ (shelfInDormant calm ∧ shelfInDormant shelving) ∧ step calm = .next (tick calm) := by
  refine ⟨⟨requestsSound_of (by decide +kernel) (by unfold ordersGiven; decide) (by decide) rfl,
      requestsSound_of (by decide +kernel) (by unfold ordersGiven; decide) (by decide) rfl⟩,
    ?_, fun h => absurd h (by decide), ⟨fun h => absurd h (by decide), fun _ => rfl⟩, rfl⟩
  unfold linesFollow; decide +kernel

/-- A turn of title 5 is in flight, and its update is queued. -/
def showing : State :=
  { queued 0 with
    turn := { TurnEngine.blank with
      state := .turning, title := 5, flight := some ⟨1, 2, .fwd, .key ⟨.fwd, 0, 0, false⟩, true, false, false⟩ }
    panel.nextOrder := 1
    panel.queue := [⟨5, ⟨0, 0, 1680, 1248⟩, .grey16, false, .turn, 0, [], none⟩] }

theorem test_turnsSound : turnsSound (queued 1) ∧ turnsSound (laned .driving 1 .mono) ∧ turnsSound showing :=
  ⟨⟨⟨rfl, rfl, rfl⟩, by decide, by decide⟩, ⟨⟨rfl, rfl, rfl⟩, by decide, by decide +kernel⟩,
    ⟨⟨by decide, rfl, rfl⟩, by decide, by decide⟩⟩

theorem test_meets_StepsKeepTheCounts :
    countsSound (queued 1) ∧ countsSound (laned .driving 1 .mono) ∧ countsSound showing := by
  have none : ∀ h, (calm.recordAt h).holds ≤ 15 := fun h => by rw [recordAt_calm]; decide
  obtain ⟨a, b, c⟩ := test_turnsSound
  refine ⟨⟨?_, ?_, ?_, a, ?_, ?_, ?_, ?_, fun h => none h, ?_, ?_, ?_⟩,
    ⟨?_, ?_, ?_, b, ?_, ?_, ?_, ?_, fun h => none h, ?_, ?_, ?_⟩,
    ⟨?_, ?_, ?_, c, ?_, ?_, ?_, ?_, fun h => none h, ?_, ?_, ?_⟩⟩
  all_goals (try unfold ordersGiven); (try unfold updatesApart); decide +kernel

theorem test_meets_StepsKeepTheMemories :
    memoriesSound { laned .driving 1 .mono with pm := { calm.pm with cells := [(3, 1), (1048576, 7)] } } := by
  unfold memoriesSound Rect.fitsRow; decide +kernel

/-- Handle 5 holds the first title block, page 1 of it stands in slot 0, page 2, in slot 1, is shown, a turn to page 1 has
asked for its show, and the title is to expire. -/
def catalogued : State :=
  { with5 { title .ready with expiry := some 9 } calm with
    blocks := ⟨.mib256, .owned 5 :: List.replicate 4087 .free, []⟩
    pm.slots := ((Vector.replicate 28 PageSlot.blank).set 0 ⟨.ready, 5, 1, 2, false, .grey16⟩).set 1
      ⟨.shown, 5, 2, 2, false, .grey16⟩
    turn := { TurnEngine.blank with
      state := .turning, title := 5, page := 2, lastShow := some 1
      flight := some ⟨0, 1, .back, .key ⟨.back, 0, 0, false⟩, false, false, false⟩ }
    cat.expiryList := [5] }

theorem records_catalogued :
    catalogued.cat.records = (with5 { title .ready with expiry := some 9 } calm).cat.records := by unfold catalogued; rfl

theorem recordAt_catalogued (h : Nat) :
    catalogued.recordAt h = if h = 5 then { title .ready with expiry := some 9 } else TitleRecord.blank := by
  rw [recordAt_congr records_catalogued h, with5, recordAt_setRecord, recordAt_calm]
  by_cases e : h = 5 <;> simp [e]

theorem test_meets_StepsKeepTheCatalogue : catalogueSound catalogued := by
  have empty : ∀ h, h ≠ 5 → catalogued.recordAt h = TitleRecord.blank := fun h n => by rw [recordAt_catalogued, if_neg n]
  have five : catalogued.recordAt 5 = { title .ready with expiry := some 9 } := by rw [recordAt_catalogued, if_pos rfl]
  have only : ∀ h, (catalogued.recordAt h).state ≠ .empty → h = 5 := fun h n =>
    Decidable.byContradiction fun e => n (by rw [empty h e]; rfl)
  have slots : ∀ i : Fin 4, catalogued.dl.slots[i].state = .free := by decide
  have list : catalogued.cat.expiryList = [5] := by unfold catalogued; rfl
  have released : catalogued.blocks.releaseList = [] := by unfold catalogued; rfl
  have conditions : catalogued.blocks.conditions = .owned 5 :: List.replicate 4087 .free := by unfold catalogued; rfl
  refine ⟨fun g h a b _ => (only g a).trans (only h b).symm, fun h => ?_, fun i _ a => absurd (slots i) a,
    fun _ => ⟨fun h => ?_, by rw [list]; exact List.pairwise_singleton ..⟩, ?_, ?_, ?_⟩
  · refine ⟨fun a => ?_, fun ⟨i, a, _⟩ => absurd (slots i) a⟩
    by_cases e : h = 5
    · subst e; rw [five] at a; exact absurd a (by decide)
    · rw [empty h e] at a; exact absurd a (by decide)
  · rw [list]
    by_cases e : h = 5
    · subst e; rw [five]; decide
    · rw [empty h e]; exact ⟨fun a => absurd (List.mem_singleton.mp a) e, fun a => absurd a (by decide)⟩
  · have extents : ∀ h, ∀ e ∈ (catalogued.recordAt h).extents, h = 5 ∧ e = ⟨8, 1⟩ := fun h e m => by
      by_cases n : h = 5
      · subst n; rw [five] at m; exact ⟨rfl, List.mem_singleton.mp m⟩
      · rw [empty h n] at m; exact absurd m List.not_mem_nil
    refine ⟨?_, fun h a => ?_, fun h x a => ?_, fun r a => ?_, ⟨fun h => ?_, ?_⟩, fun n c a => ⟨fun h => ?_, fun k => ?_⟩⟩
    · rw [conditions, List.length_cons, List.length_replicate]; unfold catalogued; rfl
    · by_cases e : h = 5
      · subst e; rw [five] at a; exact absurd a (by decide)
      · rw [empty h e]; rfl
    · obtain ⟨_, rfl⟩ := extents h x a
      rw [conditions, List.length_cons, List.length_replicate]; decide
    · rw [released] at a; exact absurd a List.not_mem_nil
    · by_cases e : h = 5
      · subst e; rw [five]; exact List.pairwise_singleton ..
      · rw [empty h e]; exact List.Pairwise.nil
    · rw [released]; exact List.Pairwise.nil
    · rw [conditions] at a
      cases n with
      | zero =>
        obtain rfl : BlockCondition.owned 5 = c := Option.some.inj a
        refine ⟨fun ⟨e, m, _⟩ => by rw [(extents h e m).1], fun e => ?_⟩
        obtain rfl : 5 = h := BlockCondition.owned.inj e
        exact ⟨⟨8, 1⟩, by rw [five]; exact List.mem_singleton.mpr rfl, by unfold Extent.has; decide⟩
      | succ n =>
        obtain rfl : c = .free := List.eq_of_mem_replicate (List.mem_of_getElem? a)
        refine ⟨fun ⟨e, m, o⟩ => ?_, fun e => by cases e⟩
        obtain ⟨_, rfl⟩ := extents h e m
        have o : 8 + (n + 1) < 8 + 1 := o.2
        omega
    · refine ⟨fun ⟨r, m, _⟩ => by rw [released] at m; exact absurd m List.not_mem_nil, fun e => ?_⟩
      rw [conditions] at a
      cases n with
      | zero => exact BlockCondition.noConfusion ((Option.some.inj a).trans e)
      | succ n => rw [List.eq_of_mem_replicate (List.mem_of_getElem? a)] at e; cases e
  · refine ⟨fun i a => ?_, by decide +kernel, by decide +kernel, by decide +kernel, fun i a => ?_, fun f e => ?_⟩
    · have i0 : i = 0 := by revert a; revert i; decide +kernel
      subst i0
      show (catalogued.recordAt 5).state = .ready ∧ 2 = (catalogued.recordAt 5).generation
      rw [five]; decide
    · have i1 : i = 1 := by revert a; revert i; decide +kernel
      subst i1
      exact Or.inl (show (catalogued.recordAt 5).state = .ready by rw [five]; rfl)
    · obtain rfl := Option.some.inj (show some _ = some f from e)
      decide +kernel
  · exact ⟨by decide +kernel, fun what a => absurd a (by rw [show catalogued.bringupReads = [] from rfl]; exact List.not_mem_nil),
      fun a => absurd a (by decide +kernel)⟩

/-! ### Steps -/

theorem test_holdTitle_counts :
    (match exec (.holdTitle (good .holdTitle [5, 0])) (with5 (title .ready) calm) with
      | .next t => some ((t.recordAt 5).holds, t.link.replies)
      | _ => none) = some (1, [⟨3, some .holdTitle, .ok, [1, 9, 0]⟩]) := by
  decide +kernel

theorem test_writePixels_writes :
    (match exec (.writePixels (pixelFrame 1 0 8 4) []) calm with
      | .next t => some (Memory.readRange t.pm.cells 1048576 5, Memory.readRange t.pm.cells (1048576 + 840 * 3) 5)
      | _ => none) = some ([0x5A, 0x5A, 0x5A, 0x5A, 0xFF], [0x5A, 0x5A, 0x5A, 0x5A, 0xFF]) := by
  decide +kernel

theorem test_updateRegion_loads :
    (match exec (.updateRegion (updateFrame 1 0 8)) calm with
      | .next t => some ((t.panel.lanes[(0 : Fin 4)]).state, (t.panel.lanes[(0 : Fin 4)]).mode, t.power.granted)
      | _ => none) = some (.loading, .clear, [⟨.lane 0, 60⟩]) := by
  decide +kernel

end Sys2Proof.Test
end

section
/-! The proof of FindTitleAnswersTheHolder (R11): what the key search of the catalogue finds, what FIND TITLE's rule
answers by it, and the reply that the Host Link Port queues. -/

open Sys2Proof Sys2Proof.Machine

namespace Sys2Proof.Machine

/-! ### The key search -/

/-- The record of handle `h` is not EMPTY and holds `key`. -/
def State.holdsKey (s : State) (key : TitleKey) (h : Nat) : Prop :=
  1 ≤ h ∧ h ≤ 1024 ∧ (s.recordAt h).state ≠ .empty ∧ (s.recordAt h).key = key

theorem mem_handles {h : Nat} : h ∈ handles ↔ 1 ≤ h ∧ h ≤ 1024 := by
  simp only [handles, List.mem_map, List.mem_range]
  constructor
  · rintro ⟨n, hn, rfl⟩
    omega
  · rintro ⟨low, high⟩
    exact ⟨h - 1, by omega, by omega⟩

/-- The test of `State.findKey` at a handle is `State.holdsKey`. -/
theorem holdsKey_iff {s : State} {key : TitleKey} {h : Nat} :
    s.holdsKey key h ↔ h ∈ handles ∧ ((s.recordAt h).state != .empty && (s.recordAt h).key == key) = true := by
  simp [State.holdsKey, mem_handles, and_assoc]

theorem findKey_eq_none_iff {s : State} {key : TitleKey} : s.findKey key = none ↔ ∀ h, ¬s.holdsKey key h := by
  simp only [State.findKey, List.find?_eq_none, holdsKey_iff, not_and]

theorem holdsKey_of_findKey {s : State} {key : TitleKey} {h : Nat} (e : s.findKey key = some h) : s.holdsKey key h := by
  unfold State.findKey at e
  have holding := List.find?_some e
  exact holdsKey_iff.mpr ⟨List.mem_of_find?_eq_some e, holding⟩

/-- The key search finds the one holder: it finds some handle, since `h` holds the key, and what it finds holds it. -/
theorem findKey_of_holdsKey {s : State} {key : TitleKey} {h : Nat} (holder : s.holdsKey key h)
    (unique : ∀ g, s.holdsKey key g → g = h) : s.findKey key = some h := by
  cases found : s.findKey key with
  | none => exact absurd holder (findKey_eq_none_iff.mp found h)
  | some g => rw [unique g (holdsKey_of_findKey found)]

/-- The key search looks at the catalogue's records only. -/
theorem findKey_congr {s t : State} (e : t.cat.records = s.cat.records) (key : TitleKey) :
    t.findKey key = s.findKey key := by
  simp only [State.findKey, recordAt_congr e]

/-! ### FIND TITLE -/

theorem findTitleOwn_notFound {f : Frame} {s : State} {key : TitleKey} (id : Nat)
    (operand : field (Frame.body f) 0 8 = key.toNat) (absent : key = 0 ∨ s.findKey key = none) :
    findTitleOwn f id s = .answered .notFound [] := by
  simp only [findTitleOwn, operand, BitVec.ofNat_toNat, BitVec.setWidth_eq]
  by_cases zero : key = 0
  · rw [if_pos zero, Verdict.refuse]
  · rw [if_neg zero, absent.resolve_left zero, Verdict.refuse]

theorem findTitleOwn_found {f : Frame} {s : State} {key : TitleKey} {h : Nat} (id : Nat)
    (operand : field (Frame.body f) 0 8 = key.toNat) (nonzero : key ≠ 0) (found : s.findKey key = some h) :
    findTitleOwn f id s =
      .answered .ok (item2 h ++ item1 (s.recordAt h).state.toNat ++ item2 (s.recordAt h).revision.toNat) := by
  simp only [findTitleOwn, operand, BitVec.ofNat_toNat, BitVec.setWidth_eq]
  rw [if_neg nonzero, found]
  rfl

/-- FIND TITLE's rule answers in the state that accepted the request as in the state before, whose records are the same. -/
theorem findTitleOwn_accept (f : Frame) (id : Nat) (s : State) :
    findTitleOwn f id (accept .findTitle f (endFetch s)) = findTitleOwn f id s := by
  have same : (accept .findTitle f (endFetch s)).cat.records = s.cat.records := rfl
  simp only [findTitleOwn, findKey_congr same, recordAt_congr same, revisionItem]

/-- A FIND TITLE that the port takes is answered at once with what its rule says, and nothing else changes. -/
theorem exec_findTitle_answered {f : Frame} {s : State} {result : Result} {payload : List Byte}
    (taken : takes .findTitle f s) (fresh : numbersFresh s)
    (e : findTitleOwn f s.link.nextId s = .answered result payload) :
    exec (.findTitle f) s = .next (repliedOnly .findTitle f result payload s) :=
  hostRequest_answered taken fresh ((findTitleOwn_accept f _ s).trans e)

/-- Settles O9: the key search finds the one holder or none, and the port queues the answer that follows from it. -/
theorem findTitleAnswersTheHolder : Obligations.FindTitleAnswersTheHolder := by
  refine ⟨by decide, fun f s key taken fresh operand => ⟨fun absent => ?_, fun h nonzero holder unique => ?_⟩⟩
  · have missing : key = 0 ∨ s.findKey key = none := absent.imp_right findKey_eq_none_iff.mpr
    exact exec_findTitle_answered taken fresh (findTitleOwn_notFound _ operand missing)
  · have found : s.findKey key = some h := findKey_of_holdsKey holder unique
    exact exec_findTitle_answered taken fresh (findTitleOwn_found _ operand nonzero found)

end Sys2Proof.Machine
end

section
/-! The proof of SlotsAreClaimedCompletedAndFreed (R81, R84, R85): what the searches of CLAIM SLOT find, what the rules of
CLAIM SLOT, COMPLETE SLOT and FREE SLOT decide case by case, and the events of the requests that they act on. -/

open Sys2Proof Sys2Proof.Machine

namespace Sys2Proof.Machine

/-! ### The searches of CLAIM SLOT -/

/-- A slot that is not FREE holds the page of the identity. -/
def State.pageHeld (s : State) (d : SlotIdentity) : Prop :=
  ∃ i : Fin 28, s.pm.slots[i].state ≠ .free ∧ s.pm.slots[i].handle = d.handle ∧ s.pm.slots[i].page = d.page
    ∧ s.pm.slots[i].generation = d.generation

theorem identity_eq_iff {p : PageSlot} {d : SlotIdentity} :
    p.identity = d ↔ p.handle = d.handle ∧ p.page = d.page ∧ p.generation = d.generation := by
  cases d
  simp [PageSlot.identity]

theorem duplicatePage_iff {s : State} {d : SlotIdentity} : s.duplicatePage d = true ↔ s.pageHeld d := by
  simp only [State.duplicatePage, State.pageHeld, List.any_eq_true, Vector.mem_toList_iff, Vector.mem_iff_getElem,
    Bool.and_eq_true, bne_iff_ne, beq_iff_eq, identity_eq_iff]
  constructor
  · rintro ⟨_, ⟨n, small, rfl⟩, holds⟩
    exact ⟨⟨n, small⟩, holds⟩
  · rintro ⟨i, holds⟩
    exact ⟨_, ⟨i, i.isLt, rfl⟩, holds⟩

theorem slotIds_eq_finRange : slotIds = List.finRange 28 := by decide

theorem freeSlotId_eq_none {s : State} (busy : ∀ i : Fin 28, s.pm.slots[i].state ≠ .free) : s.freeSlotId = none := by
  simpa [State.freeSlotId] using fun i _ => busy i

/-- The search goes upward, so it finds the FREE slot that has none below it. -/
theorem freeSlotId_eq_some {s : State} {i : Fin 28} (free : s.pm.slots[i].state = .free)
    (lowest : ∀ j : Fin 28, j < i → s.pm.slots[j].state ≠ .free) : s.freeSlotId = some i := by
  rw [State.freeSlotId, slotIds_eq_finRange, List.find?_eq_some_iff_getElem]
  refine ⟨by simpa using free, i, by simp, by simp, fun j below => ?_⟩
  simpa using lowest ⟨j, by omega⟩ below

/-! ### The rule of CLAIM SLOT (R81) -/

/-- The identity that a CLAIM SLOT carries. -/
def Frame.claimed (f : Frame) : SlotIdentity :=
  ⟨field (Frame.body f) 0 2, field (Frame.body f) 2 2, field (Frame.body f) 4 1⟩

theorem claimSlotOwn_badHandle {f : Frame} {s : State} (id : Nat)
    (bad : validHandle (Frame.claimed f).handle = false) : claimSlotOwn f id s = .refuse .badHandle := by
  rw [Frame.claimed] at bad
  simp [claimSlotOwn, bad]

theorem claimSlotOwn_noHint {f : Frame} {s : State} (id : Nat) (valid : validHandle (Frame.claimed f).handle = true)
    (noHint : hintField (Frame.body f) 6 = none) : claimSlotOwn f id s = .refuse .outOfRange := by
  rw [Frame.claimed] at valid
  simp [claimSlotOwn, valid, noHint]

section WellFormed

variable {f : Frame} {s : State} {fence : Bool} {hint : ModeHint} (id : Nat)
  (valid : validHandle (Frame.claimed f).handle = true) (fenced : flagField (Frame.body f) 5 = some fence)
  (hinted : hintField (Frame.body f) 6 = some hint)

include valid fenced hinted

/-- What is left of the rule behind the checks of the operands. -/
theorem claimSlotOwn_wellFormed :
    claimSlotOwn f id s =
      if (s.recordAt (Frame.claimed f).handle).state ≠ .ready then .refuse .wrongState
      else if (Frame.claimed f).generation ≠ (s.recordAt (Frame.claimed f).handle).generation then
        .refuse .staleGeneration
      else if s.duplicatePage (Frame.claimed f) then .refuse .duplicatePage
      else
        s.freeSlotId.elim (.refuse .noSlot) fun i =>
          .done id .ok (fun _ => item1 i.val ++ item1 (slotFrame i))
            (setSlot i ⟨.filling, (Frame.claimed f).handle, (Frame.claimed f).page, (Frame.claimed f).generation,
              fence, hint⟩ s) := by
  rw [Frame.claimed] at *
  simp only [claimSlotOwn, valid, fenced, hinted]
  cases s.freeSlotId <;> rfl

theorem claimSlotOwn_wrongState (state : (s.recordAt (Frame.claimed f).handle).state ≠ .ready) :
    claimSlotOwn f id s = .refuse .wrongState := by
  rw [claimSlotOwn_wellFormed id valid fenced hinted, if_pos state]

variable (ready : (s.recordAt (Frame.claimed f).handle).state = .ready)

include ready

theorem claimSlotOwn_staleGeneration
    (stale : (Frame.claimed f).generation ≠ (s.recordAt (Frame.claimed f).handle).generation) :
    claimSlotOwn f id s = .refuse .staleGeneration := by
  rw [claimSlotOwn_wellFormed id valid fenced hinted, if_neg (not_not_intro ready), if_pos stale]

variable (current : (Frame.claimed f).generation = (s.recordAt (Frame.claimed f).handle).generation)

include current

theorem claimSlotOwn_duplicatePage (held : s.pageHeld (Frame.claimed f)) :
    claimSlotOwn f id s = .refuse .duplicatePage := by
  rw [claimSlotOwn_wellFormed id valid fenced hinted, if_neg (not_not_intro ready), if_neg (not_not_intro current),
    if_pos (duplicatePage_iff.mpr held)]

variable (new : ¬s.pageHeld (Frame.claimed f))

include new

theorem claimSlotOwn_noSlot (busy : ∀ i : Fin 28, s.pm.slots[i].state ≠ .free) :
    claimSlotOwn f id s = .refuse .noSlot := by
  rw [claimSlotOwn_wellFormed id valid fenced hinted, if_neg (not_not_intro ready), if_neg (not_not_intro current),
    if_neg (mt duplicatePage_iff.mp new), freeSlotId_eq_none busy, Option.elim_none]

theorem claimSlotOwn_claims {i : Fin 28} (free : s.pm.slots[i].state = .free)
    (lowest : ∀ j : Fin 28, j < i → s.pm.slots[j].state ≠ .free) :
    claimSlotOwn f id s =
      .acted (answer id .ok (item1 i.val ++ item1 (i.val + 4))
        (setSlot i ⟨.filling, (Frame.claimed f).handle, (Frame.claimed f).page, (Frame.claimed f).generation, fence,
          hint⟩ s)) := by
  rw [claimSlotOwn_wellFormed id valid fenced hinted, if_neg (not_not_intro ready), if_neg (not_not_intro current),
    if_neg (mt duplicatePage_iff.mp new), freeSlotId_eq_some free lowest, Option.elim_some]
  rfl

end WellFormed

/-! ### The rules of COMPLETE SLOT and FREE SLOT (R84, R85) -/

theorem slotNumber_eq_none {n : Nat} (large : 28 ≤ n) : slotNumber n = none := dif_neg (by omega)

theorem slotNumber_val (i : Fin 28) : slotNumber i.val = some i := dif_pos i.isLt

theorem completeSlotOwn_outOfRange {f : Frame} {s : State} (id : Nat) (large : 28 ≤ field (Frame.body f) 0 1) :
    completeSlotOwn f id s = .refuse .outOfRange := by
  simp only [completeSlotOwn, slotNumber_eq_none large]

theorem freeSlotOwn_outOfRange {f : Frame} {s : State} (id : Nat) (large : 28 ≤ field (Frame.body f) 0 1) :
    freeSlotOwn f id s = .refuse .outOfRange := by
  simp only [freeSlotOwn, slotNumber_eq_none large]

/-- The slot is not FREE and has the identity that a COMPLETE SLOT carries. -/
def Frame.completes (f : Frame) (p : PageSlot) : Prop :=
  p.state ≠ .free ∧ p.handle = field (Frame.body f) 1 2 ∧ p.page = field (Frame.body f) 3 2
    ∧ p.generation = field (Frame.body f) 5 1

theorem not_completes_iff {f : Frame} {p : PageSlot} :
    ¬Frame.completes f p ↔ p.state = .free
      ∨ p.identity ≠ ⟨field (Frame.body f) 1 2, field (Frame.body f) 3 2, field (Frame.body f) 5 1⟩ := by
  rw [Frame.completes, Ne, Ne, identity_eq_iff, Decidable.not_and_iff_not_or_not, Decidable.not_not]

section Numbered

variable {f : Frame} {s : State} {i : Fin 28} (id : Nat) (number : field (Frame.body f) 0 1 = i.val)

include number

theorem completeSlotOwn_sourceGone (other : ¬Frame.completes f s.pm.slots[i]) :
    completeSlotOwn f id s = .refuse .sourceGone := by
  simp only [completeSlotOwn, number, slotNumber_val]
  rw [if_pos (not_completes_iff.mp other)]

theorem completeSlotOwn_slotState (same : Frame.completes f s.pm.slots[i]) (complete : s.pm.slots[i].state ≠ .filling) :
    completeSlotOwn f id s = .refuse .slotState := by
  simp only [completeSlotOwn, number, slotNumber_val]
  rw [if_neg (mt not_completes_iff.mpr (not_not_intro same)), if_neg complete]

theorem completeSlotOwn_completes (same : Frame.completes f s.pm.slots[i]) (filling : s.pm.slots[i].state = .filling) :
    completeSlotOwn f id s =
      .acted (answer id .ok [] (reportAhead s (setSlot i { s.pm.slots[i] with state := .ready } s))) := by
  simp only [completeSlotOwn, number, slotNumber_val]
  rw [if_neg (mt not_completes_iff.mpr (not_not_intro same)), if_pos filling]
  rfl

theorem freeSlotOwn_slotState (notFilling : s.pm.slots[i].state ≠ .filling) (notReady : s.pm.slots[i].state ≠ .ready) :
    freeSlotOwn f id s = .refuse .slotState := by
  simp only [freeSlotOwn, number, slotNumber_val]
  rw [if_neg (not_or_intro notFilling notReady)]

theorem freeSlotOwn_frees (used : s.pm.slots[i].state = .filling ∨ s.pm.slots[i].state = .ready) :
    freeSlotOwn f id s = .acted (answer id .ok [] (reportAhead s (freeSlotNow false i s))) := by
  simp only [freeSlotOwn, number, slotNumber_val]
  rw [if_pos used]
  rfl

end Numbered

/-! ### The events of the requests that are acted on -/

theorem link_reportAhead (before s : State) : (reportAhead before s).link = s.link := by
  unfold reportAhead
  split <;> rfl

theorem slots_reportAhead (before s : State) : (reportAhead before s).pm.slots = s.pm.slots :=
  kept_reportAhead before .slots (by decide) s

theorem entry_reportAhead (before s : State) : (reportAhead before s).power.entry = s.power.entry :=
  (kept_reportAhead before .entry (by decide) s).2.1

theorem entry_freeSlotNow (own : Bool) (i : Fin 28) (s : State) : (freeSlotNow own i s).power.entry = s.power.entry :=
  (kept_freeSlotNow own i .entry (by decide) s).2.1

/-- A CLAIM SLOT that its rule acts on sets the slot and answers with it. -/
theorem exec_claimSlot_claims {f : Frame} {s : State} {i : Fin 28} {p : PageSlot} {payload : List Byte}
    (taken : takes .claimSlot f s) (fresh : numbersFresh s)
    (e : claimSlotOwn f s.link.nextId (accept .claimSlot f (endFetch s)) =
      .acted (answer s.link.nextId .ok payload (setSlot i p (accept .claimSlot f (endFetch s))))) :
    ∃ t, exec (.claimSlot f) s = .next t ∧ t.pm.slots = s.pm.slots.set i p
      ∧ replies .claimSlot f .ok payload s t ∧ keptBut [.port, .slots] s t := by
  obtain ⟨t, run, kept, reply, frame⟩ := hostRequest_replies taken fresh rfl .ok payload [.port, .outstanding, .slots] e
    rfl rfl (fun q hq => kept_setSlot i p q (by simp_all) _) (by decide) (by decide)
  have slots : t.pm.slots = s.pm.slots.set i p := kept .slots rfl (by decide)
  exact ⟨t, run, slots, reply, keptBut_mono (by decide) frame⟩

/-- A COMPLETE SLOT that its rule acts on sets the slot, and the Turn Engine may learn of a page ahead (R107). -/
theorem exec_completeSlot_completes {f : Frame} {s : State} {i : Fin 28} {p : PageSlot}
    (taken : takes .completeSlot f s) (fresh : numbersFresh s)
    (e : let a := accept .completeSlot f (endFetch s)
      completeSlotOwn f s.link.nextId a = .acted (answer s.link.nextId .ok [] (reportAhead a (setSlot i p a)))) :
    ∃ t, exec (.completeSlot f) s = .next t ∧ t.pm.slots = s.pm.slots.set i p
      ∧ replies .completeSlot f .ok [] s t ∧ keptBut [.port, .slots, .turning] s t := by
  obtain ⟨t, run, kept, reply, frame⟩ := hostRequest_replies taken fresh rfl .ok []
    [.port, .outstanding, .slots, .turning] e (link_reportAhead _ _) (entry_reportAhead _ _)
    (fun q hq => q.kept_trans (kept_setSlot i p q (by simp_all) _) (kept_reportAhead _ q (by simp_all) _))
    (by decide) (by decide)
  have slots : t.pm.slots = s.pm.slots.set i p := (kept .slots rfl (by decide)).trans (slots_reportAhead _ _)
  exact ⟨t, run, slots, reply, keptBut_mono (by decide) frame⟩

/-- A FREE SLOT that its rule acts on blanks the slot (R86); where the slot's title is not RETIRING, no retirement can
complete by it, so of the rest only the Turn Engine and the attention set can change. -/
theorem exec_freeSlot_frees {f : Frame} {s : State} {i : Fin 28} (taken : takes .freeSlot f s) (given : numbersGiven s)
    (e : let a := accept .freeSlot f (endFetch s)
      freeSlotOwn f s.link.nextId a = .acted (answer s.link.nextId .ok [] (reportAhead a (freeSlotNow false i a)))) :
    ∃ t, exec (.freeSlot f) s = .next t ∧ t.pm.slots = s.pm.slots.set i PageSlot.blank ∧ hasReply .freeSlot f .ok [] t
      ∧ ((s.recordAt s.pm.slots[i].handle).state ≠ .retiring → keptBut [.port, .slots, .turning, .attention] s t) := by
  obtain ⟨t, run, kept, reply, -⟩ := hostRequest_hasReply taken given rfl .ok [] (.port :: freeingParts) e
    ((inside_reportAhead _ _).after (inside_freeSlotNow _ _ _))
    ((entry_reportAhead _ _).trans (entry_freeSlotNow _ _ _))
    (fun q hq => q.kept_trans (kept_freeSlotNow false i q (fun m => hq (List.mem_cons_of_mem _ m)) _)
      (kept_reportAhead _ q (fun m => hq (by simp_all [freeingParts, removalParts, turnParts])) _))
    (by decide) (by decide)
  have slots : t.pm.slots = s.pm.slots.set i PageSlot.blank :=
    (kept .slots rfl (by decide)).trans ((slots_reportAhead _ _).trans (slots_freeSlotNow _ _ _))
  refine ⟨t, run, slots, reply, fun live q lasting hq => ?_⟩
  have untouched : q ≠ .port ∧ q ≠ .outstanding ∧ q ∉ removalParts ++ [.slots] ∧ q ∉ [Part.turning] := by
    revert lasting hq
    cases q <;> decide
  obtain ⟨notPort, notOutstanding, notFreed, notTurning⟩ := untouched
  exact q.kept_trans (kept_accept q notPort notOutstanding .freeSlot f s)
    (q.kept_trans (kept_freeSlotNow_live false i q notFreed _ live)
      (q.kept_trans (kept_reportAhead _ q notTurning _) (kept q lasting notPort)))

/-! ### The obligation -/

/-- Settles O28: each case is one equation of the request's rule, at the state that accepted the request, and one event of
the Host Link Port. -/
theorem slotsAreClaimedCompletedAndFreed : Obligations.SlotsAreClaimedCompletedAndFreed := by
  refine ⟨?claim, ?outOfRange, ?numbered⟩
  case claim =>
    intro f s fence fresh taken fenced h page generation held named good refused
    have refusedBy : ∀ {result : Result}, claimSlotOwn f s.link.nextId (accept .claimSlot f (endFetch s)) =
        .refuse result → refused result := hostRequest_answered taken fresh
    refine ⟨fun bad => refusedBy (claimSlotOwn_badHandle _ bad),
      fun valid noHint => refusedBy (claimSlotOwn_noHint _ valid noHint), ?_, ?_, ?_, ?_, ?_⟩
    · rintro ⟨valid, hasHint⟩ state
      obtain ⟨hint, hinted⟩ := Option.isSome_iff_exists.mp hasHint
      exact refusedBy (claimSlotOwn_wrongState _ valid fenced hinted state)
    · rintro ⟨⟨valid, hasHint⟩, ready⟩ stale
      obtain ⟨hint, hinted⟩ := Option.isSome_iff_exists.mp hasHint
      exact refusedBy (claimSlotOwn_staleGeneration _ valid fenced hinted ready stale)
    · rintro ⟨⟨valid, hasHint⟩, ready⟩ current duplicate
      obtain ⟨hint, hinted⟩ := Option.isSome_iff_exists.mp hasHint
      exact refusedBy (claimSlotOwn_duplicatePage _ valid fenced hinted ready current duplicate)
    · rintro ⟨⟨valid, hasHint⟩, ready⟩ current new busy
      obtain ⟨hint, hinted⟩ := Option.isSome_iff_exists.mp hasHint
      exact refusedBy (claimSlotOwn_noSlot _ valid fenced hinted ready current new busy)
    · rintro i hint hinted ⟨⟨valid, -⟩, ready⟩ current new free lowest
      have claims := claimSlotOwn_claims (s := accept .claimSlot f (endFetch s)) s.link.nextId valid fenced hinted ready
        current new free lowest
      exact exec_claimSlot_claims taken fresh claims
  case outOfRange =>
    exact fun f s fresh large =>
      ⟨fun taken => hostRequest_answered taken fresh (completeSlotOwn_outOfRange _ large),
        fun taken => hostRequest_answered taken fresh (freeSlotOwn_outOfRange _ large)⟩
  case numbered =>
    intro f s i given number p
    have fresh : numbersFresh s := given.1
    refine ⟨fun taken => ⟨fun other => ?_, fun same complete => ?_, fun same filling => ?_⟩,
      fun taken => ⟨fun notFilling notReady => ?_, fun used => ?_⟩⟩
    · exact hostRequest_answered taken fresh (completeSlotOwn_sourceGone _ number other)
    · exact hostRequest_answered taken fresh (completeSlotOwn_slotState _ number same complete)
    · exact exec_completeSlot_completes taken fresh (completeSlotOwn_completes _ number same filling)
    · exact hostRequest_answered taken fresh (freeSlotOwn_slotState _ number notFilling notReady)
    · exact exec_freeSlot_frees taken given (freeSlotOwn_frees _ number used)

end Sys2Proof.Machine
end
